-- ==== Sys2Proof/Word.lean ====
section
/-! DEFINITION. The word types of the bridge: bytes, line numbers, the time base, and the fixed groups of bytes
that lines and packets are made of (00_scope.md, "Conventions"). -/

namespace Sys2Proof

/-- One byte: a symbol of a stored line, or a byte of a packet. -/
abbrev Byte := BitVec 8

/-- A line number, 0 to 4,294,967,295: logical or physical (00_scope.md, "Line addresses and capacity"). -/
abbrev LineNo := BitVec 32

/-- A value of the time base: microseconds in 32 bits, wrapping (R151). -/
abbrev Time := BitVec 32

/-- The 64 data bytes of a line, data byte `i` at index `i`. -/
abbrev Data := Vector Byte 64

/-- The 8 check bytes of a line. -/
abbrev Check := Vector Byte 8

/-- The 72 symbols of a stored line: 0 to 63 the data bytes, 64 to 71 the check bytes. -/
abbrev StoredLine := Vector Byte 72

/-- The byte mask of an LMERGE: entry `i` is bit `i` (R182). -/
abbrev Mask := BitVec 64

/-- The 40 bytes of an MCMD's argument block (R183). -/
abbrev ArgBlock := Vector Byte 40

/-- 64 bytes of zero. -/
def zeroData : Data := Vector.replicate 64 0

/-- The stored line whose symbols 0 to 63 are `d` and 64 to 71 are `chk` (R27). -/
def assemble (d : Data) (chk : Check) : StoredLine :=
  Vector.ofFn fun i : Fin 72 =>
    if h : i.val < 64 then d[i.val] else chk[i.val - 64]'(by omega)

/-- Symbols 0 to 63 of a stored line. -/
def dataOf (l : StoredLine) : Data := Vector.ofFn fun i : Fin 64 => l[i.val]

/-- In how many of their 72 symbols two stored lines differ (R26). -/
def symbolDistance (a b : StoredLine) : Nat :=
  (Finset.univ.filter fun i : Fin 72 => a[i.val] ≠ b[i.val]).card

end Sys2Proof
end

