-- ==== Sys2Proof/Syntax.lean ====
section
/-! DEFINITION. The commands of the bridge: one constructor for each row of spec/opcode_table.json, in the table's
order. A row that stands for a packet arriving on a link carries the packet's examined fields as its operands
(R182, R183; reserved and ignored fields are left out, R179); a row that stands for an event inside the bridge
carries none, since the event finds its subject in the state. -/

namespace Sys2Proof

/-- The levels of the four strap inputs, true for high (R163). -/
structure Straps where
  a : Bool
  b : Bool
  c : Bool
  d : Bool
deriving DecidableEq, Repr

/-- The steps of the part. -/
inductive Instr where
  /-- COLD_RESET: the reset input is asserted, with the straps at these levels (R67, R163). -/
  | coldReset (straps : Straps)
  /-- REQUESTER_HELLO: a HELLO arrives from the switch (R175). -/
  | requesterHello
  /-- REQUESTER_RESET: a RESET arrives from the switch (R176). -/
  | requesterReset
  /-- REQUESTER_LOSS_OF_SIGNAL: the receive lanes lose signal (R181). -/
  | requesterLossOfSignal
  /-- LREAD: a line read arrives, of the fixed length (R176). -/
  | lread (requester tag : Byte) (line : LineNo)
  /-- LWRITE: a full-line write arrives, of the fixed length (R176). -/
  | lwrite (requester tag : Byte) (line : LineNo) (data : Data)
  /-- LMERGE: a partial write arrives, of the fixed length (R176). -/
  | lmerge (requester tag : Byte) (line : LineNo) (mask : Mask) (data : Data)
  /-- MCMD: a management command arrives, of the fixed length (R176). -/
  | mcmd (requester tag : Byte) (block : ArgBlock)
  /-- REQUESTER_BAD_PACKET: a packet of this kind code and length arrives that is no well-framed inbound packet (R178). -/
  | requesterBadPacket (kind : Byte) (length : Nat)
  /-- ACCEPTANCE: the tracker takes the head of the request queue (R50). -/
  | acceptance
  /-- OWNERSHIP_PASS: the next entry of a line order becomes owner (R45). -/
  | ownershipPass
  /-- ISSUE_GRANT: the arbiter grants a memory credit (R77). -/
  | issueGrant
  /-- TRANSMIT_PACKET: the port sends the front of the transmit order (R180). -/
  | transmitPacket
  /-- MEMORY_HELLO: a HELLO arrives from the memory target (R70). -/
  | memoryHello (credits : Byte) (capacity : BitVec 64)
  /-- MEMORY_RESET: a RESET arrives from the memory target (R72). -/
  | memoryReset
  /-- MEMORY_LOSS_OF_SIGNAL: the memory receive lanes lose signal (R72). -/
  | memoryLossOfSignal
  /-- HELLO_TIMER_EXPIRY: the HELLO timer expires (R69). -/
  | helloTimerExpiry
  /-- MEMORY_BAD_PACKET: a packet of this kind code and length arrives that is no well-framed one (R74). -/
  | memoryBadPacket (kind : Byte) (length : Nat)
  /-- SDATA: the completion of an SREAD arrives (R79). -/
  | sdata (tag status : Byte) (stored : StoredLine)
  /-- SDONE: the completion of an SWRITE arrives (R79). -/
  | sdone (tag status : Byte)
  /-- COMPLETION_TIMEOUT_EXPIRY: the issue record with this tag reaches its deadline (R84). -/
  | completionTimeoutExpiry (tag : Fin 64)
  /-- SLOT_TIMER_EXPIRY: the slot timer expires (R89). -/
  | slotTimerExpiry
  /-- REPAIR_SERVICE: the head of the repair queue is served (R99). -/
  | repairService
  /-- FILL_ISSUE: the fill engine creates fill entries (R109). -/
  | fillIssue
  /-- COPY_START: the head of the retire queue becomes a copy (R143). -/
  | copyStart
  /-- EVENT_DELIVERY: the head record is handed to the port as an MEVENT (R156). -/
  | eventDelivery
  /-- REGION_DEFINE, code 1, at the head of the management queue (R10). -/
  | regionDefine
  /-- REGION_MODIFY, code 2 (R12). -/
  | regionModify
  /-- REGION_STATE, code 3 (R16). -/
  | regionState
  /-- REGION_REMOVE, code 4 (R18). -/
  | regionRemove
  /-- REGION_QUERY, code 5 (R20). -/
  | regionQuery
  /-- PATROL_SET, code 6 (R88). -/
  | patrolSet
  /-- FILL_START, code 7 (R107). -/
  | fillStart
  /-- FILL_STOP, code 8 (R113). -/
  | fillStop
  /-- HISTORY_QUERY, code 9 (R127). -/
  | historyQuery
  /-- HISTORY_CLEAR, code 10 (R128). -/
  | historyClear
  /-- SPARE_SET, code 11 (R131). -/
  | spareSet
  /-- SPARE_MARK, code 12 (R134). -/
  | spareMark
  /-- SPARE_QUERY, code 13 (R135). -/
  | spareQuery
  /-- RETIRE_LINE, code 14 (R140). -/
  | retireLine
  /-- RETIRE_CANCEL, code 15 (R141). -/
  | retireCancel
  /-- RETIRE_LOAD, code 16 (R142). -/
  | retireLoad
  /-- RETIRE_QUERY, code 17 (R138). -/
  | retireQuery
  /-- TIMEOUT_SET, code 18 (R83). -/
  | timeoutSet
  /-- EVENT_GRANT, code 19 (R158). -/
  | eventGrant
  /-- MANAGER_SET, code 20 (R168). -/
  | managerSet
  /-- FREEZE, code 21 (R170). -/
  | freeze
  /-- DEVICE_QUERY, code 22 (R172). -/
  | deviceQuery
  /-- UNKNOWN_COMMAND: a command of code 0 or above 22 at the head of the management queue (R165). -/
  | unknownCommand
deriving DecidableEq, Repr

end Sys2Proof
end

