-- ==== Sys2Proof/Decode.lean ====
section
/-! DEFINITION. From the bytes of a packet to the command it is (R176, R182), and back. No row of the opcode table
gives bits, so `decodeTableWord` answers none; the packets that arrive on the two links are framed by
`requesterFrame` and `memoryFrame`, which are total on any bytes. The byte-order helpers stand here too. -/

namespace Sys2Proof

/-- R182: multi-byte fields are carried with their least significant byte first. -/
def leBytes : Nat → Nat → List Byte
  | 0, _ => []
  | n + 1, v => BitVec.ofNat 8 v :: leBytes n (v / 256)

/-- The number that bytes carry, least significant first. -/
def ofLe : List Byte → Nat
  | [] => 0
  | b :: bs => b.toNat + 256 * ofLe bs

/-- Byte `i` of a packet; zero past its end. -/
def byteAt (p : List Byte) (i : Nat) : Byte := p.getD i 0

/-- The `n` bytes from offset `i` of a packet. -/
def bytesAt (p : List Byte) (i n : Nat) : Vector Byte n := Vector.ofFn fun j : Fin n => byteAt p (i + j.val)

/-- The number in the `n` bytes from offset `i`. -/
def fieldAt (p : List Byte) (i n : Nat) : Nat := ofLe (bytesAt p i n).toList

/-- The fixed length of an inbound packet of the requester link, by kind code (R182); none for a kind the bridge
does not accept there (R176). -/
def requesterLength (kind : Byte) : Option Nat :=
  if kind = 0x01 then some 16
  else if kind = 0x02 then some 80
  else if kind = 0x03 then some 88
  else if kind = 0x04 then some 48
  else if kind = 0x08 then some 8
  else if kind = 0x09 then some 8
  else none

/-- The fixed length of an inbound packet of the memory link, by kind code (R74, R182). -/
def memoryLength (kind : Byte) : Option Nat :=
  if kind = 0x08 then some 20
  else if kind = 0x09 then some 8
  else if kind = 0x31 then some 80
  else if kind = 0x32 then some 8
  else none

/-- What a whole packet that the requester link delivers is (R176, R178): the kind first, then the length. -/
def requesterFrame (p : List Byte) : Instr :=
  let kind := byteAt p 0
  let requester := byteAt p 1
  let tag := byteAt p 2
  let line := BitVec.ofNat 32 (fieldAt p 8 4)
  if p.length ≠ 0 ∧ requesterLength kind = some p.length then
    if kind = 0x01 then .lread requester tag line
    else if kind = 0x02 then .lwrite requester tag line (bytesAt p 16 64)
    else if kind = 0x03 then .lmerge requester tag line (BitVec.ofNat 64 (fieldAt p 16 8)) (bytesAt p 24 64)
    else if kind = 0x04 then .mcmd requester tag (bytesAt p 8 40)
    else if kind = 0x08 then .requesterHello
    else .requesterReset
  else .requesterBadPacket kind p.length

/-- What a whole packet that the memory link delivers is (R69, R74). -/
def memoryFrame (p : List Byte) : Instr :=
  let kind := byteAt p 0
  if p.length ≠ 0 ∧ memoryLength kind = some p.length then
    if kind = 0x08 then .memoryHello (byteAt p 8) (BitVec.ofNat 64 (fieldAt p 12 8))
    else if kind = 0x09 then .memoryReset
    else if kind = 0x31 then .sdata (byteAt p 2) (byteAt p 3) (bytesAt p 8 72)
    else .sdone (byteAt p 2) (byteAt p 3)
  else .memoryBadPacket kind p.length

/-- The eight-byte header of an inbound packet (R182), its ignored fields zero. -/
def header (kind requester tag status : Byte) : List Byte := [kind, requester, tag, status, 0, 0, 0, 0]

/-- The bytes of a packet that arrives on the requester link, for the commands that are one. -/
def requesterBytes : Instr → Option (List Byte)
  | .lread r t l => some (header 0x01 r t 0 ++ leBytes 4 l.toNat ++ leBytes 4 0)
  | .lwrite r t l d => some (header 0x02 r t 0 ++ leBytes 4 l.toNat ++ leBytes 4 0 ++ d.toList)
  | .lmerge r t l m d => some (header 0x03 r t 0 ++ leBytes 4 l.toNat ++ leBytes 4 0 ++ leBytes 8 m.toNat ++ d.toList)
  | .mcmd r t b => some (header 0x04 r t 0 ++ b.toList)
  | .requesterHello => some (header 0x08 0 0 0)
  | .requesterReset => some (header 0x09 0 0 0)
  | _ => none

/-- The bytes of a packet that arrives on the memory link, for the commands that are one. -/
def memoryBytes : Instr → Option (List Byte)
  | .memoryHello n c => some (header 0x08 0 0 0 ++ [n, 0, 0, 0] ++ leBytes 8 c.toNat)
  | .memoryReset => some (header 0x09 0 0 0)
  | .sdata t st l => some (header 0x31 0 t st ++ l.toList)
  | .sdone t st => some (header 0x32 0 t st)
  | _ => none

/-- The command a word of the opcode table spells: the table gives no row any bits, so no word spells one. -/
def decodeTableWord (_nbits _w : Nat) : Option Instr := none

end Sys2Proof
end

