-- ==== Sys2Proof/Machine/State.lean ====
section
/-! DEFINITION. The state of the bridge, block by block as 00_scope.md divides it ("Functional Blocks"), the reasons
a step can stop, and the state after cold reset. Each block's structure holds the state its chapter's table names;
the few fields that are the model's own say so. The check coder holds no state (R25). -/

namespace Sys2Proof.Machine

/-- A link is DOWN or UP (R68, R174). -/
inductive LinkState where
  | down
  | up
deriving DecidableEq, Repr

/-! ### The region unit -/

/-- The rights of one requester in a region (R1). -/
inductive Rights where
  | none
  | read
  | readWrite
deriving DecidableEq, Repr

/-- Whether requesters' reads of a region are decoded (R1). -/
inductive Mode where
  | correcting
  | unchecked
deriving DecidableEq, Repr

/-- The state of a non-EMPTY region entry (R1); EMPTY is the absence of a region. -/
inductive RegionPhase where
  | offline
  | filling
  | online
deriving DecidableEq, Repr

/-- The four statistics counters of a region, 32 bits each (R4). -/
structure Stats where
  corrected : BitVec 32
  uncorrectable : BitVec 32
  void : BitVec 32
  refused : BitVec 32
deriving DecidableEq, Repr

/-- A non-EMPTY entry of the region table (R1), with the patrol cursor and the pass count the patrol unit keeps for
it (R87). -/
structure Region where
  phase : RegionPhase
  base : LineNo
  limit : LineNo
  rights : Vector Rights 16
  mode : Mode
  patrol : Bool
  burst : Nat
  threshold : Nat
  reportCorrections : Bool
  reportPasses : Bool
  fixed : Bool
  stats : Stats
  cursor : LineNo
  passes : BitVec 16
deriving DecidableEq, Repr

/-! ### The request tracker -/

/-- What the check coder found in a stored line: its four outcomes, CORRECTED with the symbol position (R28). -/
inductive Finding where
  | clean
  | corrected (symbol : Fin 72)
  | uncorrectable
  | void
deriving DecidableEq, Repr

/-- The kind of a request (R6, R42). -/
inductive Kind where
  | read
  | write
  | merge
deriving DecidableEq, Repr

/-- What only an entry of REQUESTER origin holds (R42). -/
structure Ticket where
  requester : Fin 16
  tag : Fin 64
  kind : Kind
  abandoned : Bool
deriving DecidableEq, Repr

/-- The origin of a tracker entry (R42). -/
inductive Origin where
  | requester (ticket : Ticket)
  | scan
  | repair
  | fill
  | copy
deriving DecidableEq, Repr

/-- The pools of the tracker (R40). -/
inductive Pool where
  | requester
  | patrol
  | copy
deriving DecidableEq, Repr

/-- The five phases of an entry (R43). -/
inductive Phase where
  | waitingLine
  | waitingIssue
  | awaitingData
  | awaitingDone
  | expired
deriving DecidableEq, Repr

/-- A tracker entry (R42). `writing` is the model's own name for what R77 calls being in a write phase: the
operation the entry waits to issue, or has outstanding, is its SWRITE. -/
structure Entry where
  origin : Origin
  line : LineNo
  physical : Option LineNo
  region : Option (Fin 32)
  mode : Option Mode
  data : Option Data
  mask : Option Mask
  phase : Phase
  writing : Bool
  finding : Option Finding
deriving DecidableEq, Repr

/-- The tracker: 64 entries by index (R40), and the entries that stand in line orders, in the order in which they
joined (R44). The line order of a line is the sublist of `order` with that logical line. -/
structure Tracker where
  entries : Vector (Option Entry) 64
  order : List (Fin 64)
deriving DecidableEq, Repr

/-! ### The memory port -/

/-- The two memory operations (R68). -/
inductive MemoryOp where
  | read
  | write
deriving DecidableEq, Repr

/-- An issue record (R68): one for each credit in use. -/
structure IssueRecord where
  tag : Fin 64
  op : MemoryOp
  issued : Time
  deadline : Time
deriving DecidableEq, Repr

/-- The packets the bridge sends on the memory link (R182). -/
inductive MemoryPacket where
  | hello
  | sread (tag : Fin 64) (line : LineNo)
  | swrite (tag : Fin 64) (line : LineNo) (stored : StoredLine)
deriving DecidableEq, Repr

/-- The memory port (R68). Credits in use are the issue records, one each. `helloStart` is the time base value at
which the running period of the HELLO timer began; none while the timer is stopped. Two fields are the model's own:
`joined` is the entries that have joined the waiting order at the present event, which join it in ascending order of
index (R76); `sent` is what has left on the memory link since cold reset, oldest first. -/
structure MemoryPort where
  link : LinkState
  capacity : Option Nat
  announced : Option Nat
  records : List IssueRecord
  waiting : List (Fin 64)
  joined : List (Fin 64)
  mtimeout : Nat
  helloStart : Option Time
  sent : List MemoryPacket
deriving DecidableEq, Repr

/-! ### The patrol unit and its fill engine -/

/-- The states of an active fill (R106); IDLE is the absence of one. -/
inductive FillPhase where
  | issuing
  | stopping
  | failing
deriving DecidableEq, Repr

/-- Why a fill write failed (R114). -/
inductive FillFailure where
  | targetError
  | timeout
deriving DecidableEq, Repr

/-- The failed line of a fill (R106). -/
structure FailedLine where
  line : LineNo
  physical : LineNo
  reason : FillFailure
deriving DecidableEq, Repr

/-- An active fill (R106). A cursor of none is ALL_ISSUED, a watermark of none is BEYOND_LIMIT. `unwritten` is what
R111 implies: the lines whose fill write failed, which are not acknowledged and not outstanding. -/
structure Fill where
  phase : FillPhase
  region : Fin 32
  cursor : Option LineNo
  watermark : Option LineNo
  outstanding : List LineNo
  unwritten : List LineNo
  failed : Option FailedLine
deriving DecidableEq, Repr

/-- The patrol unit (R87, R97, R106). `slotStart` is the time base value at which the running slot period began. -/
structure Patrol where
  scanEnabled : Bool
  slotPeriod : Nat
  slotStart : Time
  pointer : Fin 32
  repairQueue : List LineNo
  fill : Option Fill
deriving DecidableEq, Repr

/-! ### The error history table -/

/-- The origin of a corrected write-back (R118). -/
inductive WriteBackOrigin where
  | scan
  | repair
  | merge
deriving DecidableEq, Repr

/-- The retire state of a history entry (R118). -/
inductive RetireState where
  | none
  | queued
  | deferred
deriving DecidableEq, Repr

/-- An entry of the error history table (R118). -/
structure HistoryEntry where
  line : LineNo
  region : Fin 32
  count : Nat
  symbol : Fin 72
  origin : WriteBackOrigin
  updated : Time
  retire : RetireState
deriving DecidableEq, Repr

/-! ### The retirement unit -/

/-- The four states of a spare (R133). -/
inductive SpareState where
  | free
  | reserved
  | inUse
  | defective
deriving DecidableEq, Repr

/-- A defined spare area with its spare table: spare `i` is `spares[i]`, and the count is their number (R130). -/
structure SpareArea where
  base : LineNo
  spares : List SpareState
deriving DecidableEq, Repr

/-- The manager tag of a MANUAL retirement: the command tag and the number of the manager that sent it (R139). -/
structure ManagerTag where
  manager : Byte
  tag : Byte
deriving DecidableEq, Repr

/-- The origin of a retirement; MANUAL with its manager tag, which only the retire queue and the copy keep. -/
inductive RetireOrigin where
  | auto
  | manual (tag : ManagerTag)
deriving DecidableEq, Repr

/-- An entry of the retire queue (R139). -/
structure RetireEntry where
  line : LineNo
  origin : RetireOrigin
  spare : Nat
deriving DecidableEq, Repr

/-- The state of a map entry (R137). -/
inductive MapState where
  | copying
  | active
deriving DecidableEq, Repr

/-- An entry of the retirement map (R137). `auto` is the origin field: AUTO, or else MANUAL. -/
structure MapEntry where
  line : LineNo
  spare : Nat
  state : MapState
  pending : Option Nat
  auto : Bool
  void : Bool
  time : Option Time
deriving DecidableEq, Repr

/-- The copy in progress (R139, R143): its line, what its queue entry held, and its void flag (R145). -/
structure CopyJob where
  line : LineNo
  origin : RetireOrigin
  spare : Nat
  void : Bool
deriving DecidableEq, Repr

/-- The retirement unit (R130, R150). -/
structure Retirement where
  area : Option SpareArea
  unavailable : Bool
  queue : List RetireEntry
  map : List MapEntry
  copy : Option CopyJob
deriving DecidableEq, Repr

/-! ### The event unit -/

/-- The 29 event kinds, in the order of the table of section 9.6. -/
inductive EventKind where
  | correctedRead
  | repaired
  | uncorrectable
  | voidRead
  | lineVoided
  | accessRefused
  | memoryTimeout
  | lateCompletion
  | targetError
  | unmatchedCompletion
  | memoryLinkDown
  | memoryLinkUp
  | regionClipped
  | spareClipped
  | requesterLinkReset
  | protocolError
  | managementRefused
  | passDone
  | fillDone
  | fillStopped
  | fillFailed
  | historyEvict
  | retireQueued
  | retireDeferred
  | sparesExhausted
  | retireDone
  | retireFailed
  | managerChanged
  | eventsLost
deriving DecidableEq, Repr

/-- The 42 reasons of event records, in the order of R184. -/
inductive Reason where
  | denied
  | unmapped
  | read
  | write
  | ok
  | error
  | noOperation
  | wrongKind
  | lossOfSignal
  | targetReset
  | partnerReset
  | protocolViolation
  | notManager
  | partialFill
  | allWritten
  | targetError
  | timeout
  | linkLost
  | none
  | deferred
  | beyondCapacity
  | queueFull
  | noSpareArea
  | noneFree
  | unavailable
  | data
  | void
  | spareUnavailable
  | linkLostBeforeWrite
  | readError
  | readTimeout
  | writeError
  | writeTimeout
  | linkLostAfterWrite
  | memoryHelloInvalid
  | memoryHelloWhileUp
  | memoryUnknownKind
  | memoryBadLength
  | requesterUnknownKind
  | requesterBadLength
  | requesterNoRequestCredit
  | requesterNoManagementCredit
deriving DecidableEq, Repr

/-- The origins an event record can carry (R153, R184). -/
inductive EventOrigin where
  | requester
  | scan
  | repair
  | fill
  | copy
  | auto
  | manual
  | merge
deriving DecidableEq, Repr

/-- What a block raises: the kind and the optional fields of a record (R153). A requester and its tag go together. -/
structure Notice where
  kind : EventKind
  region : Option (Fin 32) := .none
  line : Option LineNo := .none
  physical : Option LineNo := .none
  requester : Option (Byte × Byte) := .none
  origin : Option EventOrigin := .none
  reason : Option Reason := .none
  count : Option Nat := .none
  spare : Option Nat := .none
  symbol : Option (Fin 72) := .none
deriving DecidableEq, Repr

/-- An event record: a notice with its sequence number and time (R153). -/
structure EventRecord where
  seq : BitVec 16
  time : Time
  notice : Notice
deriving DecidableEq, Repr

/-- The event unit (R151, R152). -/
structure EventUnit where
  time : Time
  queue : List EventRecord
  credits : Nat
  lost : Nat
  nextSeq : BitVec 16
deriving DecidableEq, Repr

/-! ### The management unit -/

/-- The management unit (R163). -/
structure Management where
  manager : Fin 16
  frozen : Bool
deriving DecidableEq, Repr

/-! ### The requester port -/

/-- The twelve requester statuses, in the order of R57. -/
inductive Status where
  | ok
  | void
  | uncorrectable
  | unmapped
  | offline
  | notReady
  | denied
  | timeout
  | targetError
  | linkLost
  | tagConflict
  | malformed
deriving DecidableEq, Repr

/-- The ten reasons of a REFUSED response, in the order of R166. -/
inductive RefusedReason where
  | badArgument
  | notFound
  | state
  | busy
  | overlap
  | frozen
  | notManager
  | noSpare
  | linkDown
  | unknownCommand
deriving DecidableEq, Repr

/-- The outcome of a management command (R166). -/
inductive CommandOutcome where
  | done
  | started
  | refused (reason : RefusedReason)
deriving DecidableEq, Repr

/-- The numbers of spares in each state (R135). -/
structure SpareCounts where
  free : Nat
  reserved : Nat
  inUse : Nat
  defective : Nat
deriving DecidableEq, Repr

/-- The results of SPARE_QUERY (R135, R184): base and count of a defined area. -/
structure SpareView where
  area : Option (LineNo × Nat)
  unavailable : Bool
  counts : SpareCounts
deriving DecidableEq, Repr

/-- The results of DEVICE_QUERY (R172, R184). -/
structure DeviceView where
  requesterLink : LinkState
  memoryLink : LinkState
  capacity : Option Nat
  announced : Option Nat
  inUse : Nat
  requesterPool : Nat
  patrolPool : Nat
  copyPool : Nat
  expired : Nat
  frozen : Bool
  manager : Fin 16
  spareDefined : Bool
  counts : SpareCounts
  retireQueue : Nat
  repairQueue : Nat
  eventQueue : Nat
  time : Time
deriving DecidableEq, Repr

/-- The result fields of a response, by command (R184). A next slot or position of none is END. -/
inductive Result where
  | empty
  | region (entry : Option Region)
  | history (occupied : Nat) (next : Option Nat) (entries : List (Nat × HistoryEntry))
  | retireMap (count : Nat) (next : Option Nat) (entries : List (Nat × MapEntry))
  | spare (view : SpareView)
  | device (view : DeviceView)
  | timeout (value : Nat)
  | patrol (enabled : Bool) (period : Nat)
  | credits (held : Nat)
  | manager (number : Fin 16)
  | spareArea (base : LineNo) (count : Nat)
  | fill (region : Fin 32) (line : Option LineNo)
  | retirement (line : LineNo) (spare : Nat)
  | cleared (deleted kept : Nat)
deriving DecidableEq, Repr

/-- The packets the bridge sends on the requester link (R182). -/
inductive OutPacket where
  | hello
  | ldata (dest tag : Byte) (status : Status) (corrected : Bool) (data : Data)
  | ldone (dest tag : Byte) (status : Status)
  | mresp (dest tag code : Byte) (outcome : CommandOutcome) (result : Result)
  | mevent (dest : Byte) (record : EventRecord)
  | credit
deriving DecidableEq, Repr

/-- A packet as it was sent: with its two credit fields (R180). -/
structure SentPacket where
  packet : OutPacket
  requestCredits : Nat
  managementCredits : Nat
deriving DecidableEq, Repr

/-- What a request carries besides its requester, tag and line (R182). -/
inductive RequestBody where
  | read
  | write (data : Data)
  | merge (mask : Mask) (data : Data)
deriving DecidableEq, Repr

/-- A packet of the request queue, its fields as received (R174, R179). -/
structure Request where
  requester : Byte
  tag : Byte
  line : LineNo
  body : RequestBody
deriving DecidableEq, Repr

/-- A packet of the management queue (R174). -/
structure Command where
  requester : Byte
  tag : Byte
  block : ArgBlock
deriving DecidableEq, Repr

/-- The requester port (R174). The transmit lanes carry signal exactly while the link is UP (R175, R181). `sent` is
the model's own: what has left on the requester link since cold reset, oldest first. -/
structure RequesterPort where
  link : LinkState
  requests : List Request
  commands : List Command
  requestOwed : Nat
  managementOwed : Nat
  transmit : List OutPacket
  sent : List SentPacket
deriving DecidableEq, Repr

/-! ### The whole bridge -/

/-- The state of the bridge, and the commands that wait to be taken (`pending`, the model's own, first in first
out). -/
structure State where
  port : RequesterPort
  regions : Vector (Option Region) 32
  tracker : Tracker
  memory : MemoryPort
  patrol : Patrol
  history : Vector (Option HistoryEntry) 128
  retirement : Retirement
  events : EventUnit
  management : Management
  pending : List Instr
deriving DecidableEq, Repr

/-- The reasons a step stops with a fault: there are none. The manual gives every command of the table an effect
in every state, so no meaning faults (safe: nothing is cut off). -/
inductive Fault
deriving DecidableEq, Repr

/-- The reasons a command is refused. -/
inductive Refusal where
  /-- The command has no meaning yet. Only exec's arms raise it (safe: the model stops); no arm does now. -/
  | notModelled (mnemonic : String)
deriving DecidableEq, Repr

/-- The bridge right after cold reset, with every strap low, and one HELLO sent on the memory link as the memory port
enters DOWN: R23, R67, R68, R69, R87, R97, R106, R119, R150, R152, R163, R174. -/
def State.reset : State where
  port :=
    { link := .down, requests := [], commands := [], requestOwed := 0, managementOwed := 0, transmit := [], sent := [] }
  regions := Vector.replicate 32 none
  tracker := { entries := Vector.replicate 64 none, order := [] }
  memory :=
    { link := .down, capacity := none, announced := none, records := [], waiting := [], joined := [],
      mtimeout := 20000, helloStart := some 0, sent := [.hello] }
  patrol :=
    { scanEnabled := false, slotPeriod := 1000, slotStart := 0, pointer := 31, repairQueue := [], fill := none }
  history := Vector.replicate 128 none
  retirement := { area := none, unavailable := false, queue := [], map := [], copy := none }
  events := { time := 0, queue := [], credits := 0, lost := 0, nextSeq := 0 }
  management := { manager := 0, frozen := false }
  pending := []

end Sys2Proof.Machine
end

