-- ==== Sys2Proof/Machine/Ops.lean ====
section
/-! DEFINITION. The shared operations over the state: raising events, handing packets to the requester port, the
region table, the tracker and its line orders, redirection, and the small operations that one block performs for
another. Every rule that says "raises", "answers", "leaves the tracker" or "becomes owner" goes through these. -/

namespace Sys2Proof.Machine

/-! ### Time -/

/-- The microseconds from `since` to `now`, modulo the wrap of the time base (R84, R122). -/
def elapsed (now since : Time) : Nat := (now - since).toNat

/-- The time base (R151). -/
def State.now (s : State) : Time := s.events.time

/-! ### Events -/

/-- R154: a raised record joins the queue with the next sequence number, or is discarded and counted when the queue
holds 32 records. -/
def EventUnit.push (n : Notice) (u : EventUnit) : EventUnit :=
  if u.queue.length < 32 then
    { u with queue := u.queue ++ [{ seq := u.nextSeq, time := u.time, notice := n }], nextSeq := u.nextSeq + 1 }
  else { u with lost := min (u.lost + 1) 65535 }

/-- A block raises an event (R154). -/
def State.raise (n : Notice) (s : State) : State := { s with events := s.events.push n }

/-- A block raises several events at one event, in order (R155). -/
def State.raiseAll (ns : List Notice) (s : State) : State := ns.foldl (fun t n => t.raise n) s

/-! ### The requester port's transmit side -/

/-- R180: a packet handed while the link is UP joins the transmit order; one handed while DOWN is discarded. -/
def State.hand (p : OutPacket) (s : State) : State :=
  if s.port.link = .up then { s with port := { s.port with transmit := s.port.transmit ++ [p] } } else s

/-- R180: with credits owed and the transmit order empty, the port hands itself a CREDIT packet. -/
def State.handCredit (s : State) : State :=
  if s.port.transmit = [] ∧ (0 < s.port.requestOwed ∨ 0 < s.port.managementOwed) then s.hand .credit else s

/-- An LREAD is answered by LDATA, an LWRITE or LMERGE by LDONE (R55, R57). -/
def State.respond (requester tag : Byte) (kind : Kind) (status : Status) (corrected : Bool) (d : Data)
    (s : State) : State :=
  match kind with
  | .read => s.hand (.ldata requester tag status corrected d)
  | .write => s.hand (.ldone requester tag status)
  | .merge => s.hand (.ldone requester tag status)

/-- The requester number and tag of a ticket as bytes of a packet. -/
def Ticket.name (t : Ticket) : Byte × Byte := (BitVec.ofNat 8 t.requester.val, BitVec.ofNat 8 t.tag.val)

/-- The answer to the request an entry holds; none if the entry is abandoned (R65). -/
def State.respondEntry (t : Ticket) (status : Status) (corrected : Bool) (d : Data) (s : State) : State :=
  if t.abandoned then s else s.respond t.name.1 t.name.2 t.kind status corrected d

/-! ### The region table -/

/-- Region entry `i`; none for EMPTY (R1). -/
def State.region (s : State) (i : Fin 32) : Option Region := s.regions[i.val]

/-- Replace region entry `i`. -/
def State.setRegion (i : Fin 32) (r : Option Region) (s : State) : State :=
  { s with regions := s.regions.set i.val r }

/-- Change region entry `i` if it is not EMPTY. -/
def State.modifyRegion (i : Fin 32) (f : Region → Region) (s : State) : State :=
  match s.region i with
  | some r => s.setRegion i (some (f r))
  | none => s

/-- A region contains every line from base to limit, both included (R1). -/
def Region.contains (r : Region) (l : LineNo) : Bool :=
  decide (r.base.toNat ≤ l.toNat) && decide (l.toNat ≤ r.limit.toNat)

/-- The non-EMPTY entry that contains a line (R3). -/
def State.lookup (s : State) (l : LineNo) : Option (Fin 32 × Region) :=
  (List.finRange 32).findSome? fun i =>
    match s.region i with
    | some r => if r.contains l then some (i, r) else none
    | none => none

/-- Whether the range `base` to `limit` overlaps a non-EMPTY region other than `except` (R10, R12, R131). -/
def State.overlapsRegion (s : State) (except : Option (Fin 32)) (base limit : Nat) : Bool :=
  (List.finRange 32).any fun i =>
    if some i = except then false
    else match s.region i with
      | some r => decide (r.base.toNat ≤ limit) && decide (base ≤ r.limit.toNat)
      | none => false

/-- R4: an increment of a counter at its ceiling leaves it there. -/
def bump (n : BitVec 32) : BitVec 32 := if n.toNat = 4294967295 then n else n + 1

/-! ### The spare area -/

/-- Spare index `i` is physical line base + i (R130). -/
def SpareArea.line (a : SpareArea) (i : Nat) : LineNo := a.base + BitVec.ofNat 32 i

/-- Whether a line lies in the spare area. -/
def SpareArea.contains (a : SpareArea) (l : LineNo) : Bool :=
  decide (a.base.toNat ≤ l.toNat) && decide (l.toNat < a.base.toNat + a.spares.length)

/-- Whether the range `base` to `limit` overlaps the spare area, if one is defined (R10). -/
def State.overlapsSpares (s : State) (base limit : Nat) : Bool :=
  match s.retirement.area with
  | some a => decide (a.base.toNat ≤ limit) && decide (base < a.base.toNat + a.spares.length)
  | none => false

/-- Spare `i` moves to another state (R133). -/
def State.setSpare (i : Nat) (x : SpareState) (s : State) : State :=
  match s.retirement.area with
  | some a => { s with retirement := { s.retirement with area := some { a with spares := a.spares.set i x } } }
  | none => s

/-- The numbers of spares in each state; zero if no area is defined (R135). -/
def Retirement.counts (r : Retirement) : SpareCounts :=
  match r.area with
  | some a =>
    { free := a.spares.count .free, reserved := a.spares.count .reserved, inUse := a.spares.count .inUse,
      defective := a.spares.count .defective }
  | none => { free := 0, reserved := 0, inUse := 0, defective := 0 }

/-! ### The retirement map -/

/-- The map entry of a line (R137). -/
def Retirement.entry (r : Retirement) (l : LineNo) : Option MapEntry := r.map.find? fun m => m.line = l

/-- Put an entry at its place in ascending order of logical line (R137). -/
def insertMap (m : MapEntry) : List MapEntry → List MapEntry
  | [] => [m]
  | x :: xs => if m.line.toNat < x.line.toNat then m :: x :: xs else x :: insertMap m xs

/-- Change the map entry of a line. -/
def changeMap (l : LineNo) (f : MapEntry → MapEntry) (ms : List MapEntry) : List MapEntry :=
  ms.map fun m => if m.line = l then f m else m

/-- Replace the retirement map. -/
def State.setMap (ms : List MapEntry) (s : State) : State := { s with retirement := { s.retirement with map := ms } }

/-- R48: the physical line of a logical line: its spare's line where the map holds an ACTIVE entry, else the line. -/
def State.resolve (s : State) (l : LineNo) : LineNo :=
  match s.retirement.area, s.retirement.entry l with
  | some a, some m => if m.state = .active then a.line m.spare else l
  | _, _ => l

/-! ### The tracker -/

/-- Tracker entry `i` (R40). -/
def State.entry (s : State) (i : Fin 64) : Option Entry := s.tracker.entries[i.val]

/-- Write tracker entry `i`. -/
def State.setEntry (i : Fin 64) (e : Option Entry) (s : State) : State :=
  { s with tracker := { s.tracker with entries := s.tracker.entries.set i.val e } }

/-- The pool of an origin (R40). -/
def Origin.pool : Origin → Pool
  | .requester _ => .requester
  | .scan => .patrol
  | .repair => .patrol
  | .fill => .patrol
  | .copy => .copy

/-- The ceiling of a pool (R40). -/
def Pool.ceiling : Pool → Nat
  | .requester => 57
  | .patrol => 6
  | .copy => 1

/-- How many entries count against a pool: every phase, EXPIRED included (R40). -/
def State.occupancy (s : State) (p : Pool) : Nat :=
  (List.finRange 64).countP fun i => (s.entry i).any fun e => e.origin.pool = p

/-- The index a new entry of a pool takes, if the pool has a free entry: the lowest that no entry holds (R40, R41). -/
def State.slotFor (s : State) (p : Pool) : Option (Fin 64) :=
  if s.occupancy p < p.ceiling then (List.finRange 64).find? fun i => (s.entry i).isNone else none

/-- Whether some tracker entry, of any origin and in any phase, carries a region's index (R18, R107). -/
def State.refersTo (s : State) (i : Fin 32) : Bool :=
  (List.finRange 64).any fun j => (s.entry j).any fun e => e.region = some i

/-- The line order of a logical line, owner first (R44). -/
def State.lineOrder (s : State) (l : LineNo) : List (Fin 64) :=
  s.tracker.order.filter fun i => (s.entry i).any fun e => e.line = l

/-- R76: an index joins the end of a waiting order, but before the entries of the same event with a higher index. -/
def joinWaiting (joined : List (Fin 64)) (i : Fin 64) : List (Fin 64) → List (Fin 64)
  | [] => [i]
  | j :: js => if j ∈ joined ∧ i < j then i :: j :: js else j :: joinWaiting joined i js

/-- R76: an entry joins the waiting order; those that join it at one event stand in ascending order of index. -/
def MemoryPort.join (i : Fin 64) (m : MemoryPort) : MemoryPort :=
  { m with waiting := joinWaiting m.joined i m.waiting, joined := m.joined ++ [i] }

/-- An event is over: what joins the waiting order from now on joins behind what has joined it (R76). -/
def State.closeEvent (s : State) : State := { s with memory := { s.memory with joined := [] } }

/-- An entry enters WAITING_ISSUE and joins the waiting order (R43, R76). -/
def State.wait (i : Fin 64) (e : Entry) (s : State) : State :=
  { s.setEntry i (some { e with phase := .waitingIssue }) with memory := s.memory.join i }

/-- R144: what the retirement unit does to the map when the copy becomes owner: a first retirement inserts a COPYING
entry, a re-retire sets the ACTIVE one COPYING with its pending spare. -/
def State.prepareMap (job : CopyJob) (s : State) : State :=
  match s.retirement.entry job.line with
  | none =>
    s.setMap (insertMap
      { line := job.line, spare := job.spare, state := .copying, pending := none,
        auto := decide (job.origin = .auto), void := false, time := none } s.retirement.map)
  | some _ =>
    s.setMap (changeMap job.line (fun m => { m with state := .copying, pending := some job.spare }) s.retirement.map)

/-- R45, R48, R49: an entry becomes owner of its line. It resolves its physical line, for a copy the source as mapped
before the map is prepared, and goes to WAITING_ISSUE. -/
def State.becomeOwner (i : Fin 64) (s : State) : State :=
  match s.entry i with
  | none => s
  | some e =>
    let owned := { e with physical := some (s.resolve e.line) }
    match e.origin, s.retirement.copy with
    | .copy, some job => (s.prepareMap job).wait i owned
    | _, _ => s.wait i owned

/-- R44, R54, R56: a new entry takes index `i` and joins the end of its line order; alone there, it is owner at once. -/
def State.create (i : Fin 64) (e : Entry) (s : State) : State :=
  let joined :=
    { s with tracker :=
        { entries := s.tracker.entries.set i.val (some { e with phase := .waitingLine })
          order := s.tracker.order ++ [i] } }
  if s.lineOrder e.line = [] then joined.becomeOwner i else joined

/-- An entry leaves its line order (R45). -/
def State.leaveOrder (i : Fin 64) (s : State) : State :=
  { s with tracker := { s.tracker with order := s.tracker.order.filter (· ≠ i) } }

/-- An entry leaves the tracker, its line order and the waiting order, and gives up its index (R41, R45, R76). -/
def State.release (i : Fin 64) (s : State) : State :=
  { s with
    tracker := { entries := s.tracker.entries.set i.val none, order := s.tracker.order.filter (· ≠ i) }
    memory := { s.memory with waiting := s.memory.waiting.filter (· ≠ i) } }

/-! ### Fields of events about entries -/

/-- The origin an event about an entry carries (R153). -/
def Origin.event : Origin → EventOrigin
  | .requester _ => .requester
  | .scan => .scan
  | .repair => .repair
  | .fill => .fill
  | .copy => .copy

/-- The requester number and tag of a REQUESTER entry. -/
def Origin.name : Origin → Option (Byte × Byte)
  | .requester t => some t.name
  | .scan => none
  | .repair => none
  | .fill => none
  | .copy => none

/-- Whether an entry is of REQUESTER origin. -/
def Origin.isRequester : Origin → Bool
  | .requester _ => true
  | .scan => false
  | .repair => false
  | .fill => false
  | .copy => false

/-- The origin field of an event about a retirement (R153). -/
def RetireOrigin.event : RetireOrigin → EventOrigin
  | .auto => .auto
  | .manual _ => .manual

/-- The manager number and command tag of a MANUAL retirement (R146, R147). -/
def RetireOrigin.name : RetireOrigin → Option (Byte × Byte)
  | .auto => none
  | .manual t => some (t.manager, t.tag)

/-! ### What one block does for another -/

/-- R98: a line offered to the repair queue joins its end, unless it is there already or the queue holds 8 lines. -/
def State.offerRepair (l : LineNo) (s : State) : State :=
  if l ∈ s.patrol.repairQueue ∨ 8 ≤ s.patrol.repairQueue.length then s
  else { s with patrol := { s.patrol with repairQueue := s.patrol.repairQueue ++ [l] } }

/-- R100: lines leave the repair queue otherwise than by service; the rest keep their order. -/
def State.dropRepairs (p : LineNo → Bool) (s : State) : State :=
  { s with patrol := { s.patrol with repairQueue := s.patrol.repairQueue.filter fun l => !p l } }

/-- The error history table deletes the entries that meet a condition (R125, R126, R128). -/
def State.forgetHistory (p : HistoryEntry → Bool) (s : State) : State :=
  { s with history := s.history.map fun x => x.filter fun e => !p e }

/-- R125: at a cancelled or failed AUTO retirement, the line's QUEUED entry returns to NONE. -/
def State.unqueueHistory (l : LineNo) (s : State) : State :=
  { s with history := s.history.map fun x => x.map fun e =>
      if e.line = l ∧ e.retire = .queued then { e with retire := .none } else e }

/-- R125: the notice the retirement unit sends when a retirement is cancelled or fails; a MANUAL one sends none. -/
def State.noticeEnded (o : RetireOrigin) (l : LineNo) (s : State) : State :=
  match o with
  | .auto => s.unqueueHistory l
  | .manual _ => s

end Sys2Proof.Machine
end

