-- ==== Sys2Proof/Machine/Events.lean ====
section
/-! DEFINITION. The event unit at work (9.4): delivery of records to the manager. -/

namespace Sys2Proof.Machine

/-- R156: the queue is not empty, the event credits are above 0 and the requester link is UP. -/
def State.deliverable (s : State) : Bool :=
  !s.events.queue.isEmpty && decide (0 < s.events.credits) && decide (s.port.link = .up)

/-- R157: at a removal, a lost count above 0 is reported by an EVENTS_LOST record at the end of the queue. -/
def EventUnit.reportLost (u : EventUnit) : EventUnit :=
  if 0 < u.lost then { u.push { kind := .eventsLost, count := some u.lost } with lost := 0 } else u

/-- The event unit after its head record is delivered: one credit spent, the record removed (R156, R157). -/
def EventUnit.deliver (rest : List EventRecord) (u : EventUnit) : EventUnit :=
  EventUnit.reportLost { u with queue := rest, credits := u.credits - 1 }

/-- R156: the head record is handed to the port as an MEVENT to the manager. No effect when the three conditions do
not hold together. -/
def State.eventDelivery (s : State) : State :=
  if s.deliverable then
    match s.events.queue with
    | r :: rest =>
      State.hand (.mevent (BitVec.ofNat 8 s.management.manager.val) r) { s with events := s.events.deliver rest }
    | [] => s
  else s

end Sys2Proof.Machine
end

