-- ==== Sys2Proof/Config.lean ====
section
/-! DEFINITION. What the manual leaves to the implementation: the check code. R26 specifies it "by these
properties alone", so the code is an uninterpreted constant that is known to have those properties and nothing
else. `checkBytes` is the code of the bridge. -/

namespace Sys2Proof.Config

/-- The void form under a code (R31): zero data, and each check byte the inverse of the valid one for zero data. -/
def voidLine (f : Data → Check) : StoredLine :=
  assemble zeroData ((f zeroData).map (~~~ ·))

/-- The properties by which R26 specifies the code: its items 1, 2 and 3 (the last over the fill values 00, FF). -/
structure CodeLaws (f : Data → Check) : Prop where
  valid_far : ∀ a b : Data, a ≠ b → 4 ≤ symbolDistance (assemble a (f a)) (assemble b (f b))
  void_far : ∀ a : Data, 4 ≤ symbolDistance (voidLine f) (assemble a (f a))
  blank_far : ∀ v : Byte, v = 0x00 ∨ v = 0xFF →
    (∀ a : Data, 4 ≤ symbolDistance (Vector.replicate 72 v) (assemble a (f a)))
      ∧ 4 ≤ symbolDistance (Vector.replicate 72 v) (voidLine f)

/-! ### A code with the properties exists

`sampleCheck` serves one purpose: to show that the properties can be met, so that a lawful code can be named.
No claim about the bridge can tell which lawful code it has. -/

/-- The weighted sum of the data bytes modulo 257, with weight `(i + 1) ^ k` for byte `i`. -/
def powerSum (k : Nat) (d : Data) : Nat :=
  (∑ i : Fin 64, (i.val + 1) ^ k * d[i.val].toNat) % 257

/-- Three weighted sums, each in two bytes, and two constant bytes. -/
def sampleCheck (d : Data) : Check :=
  #v[BitVec.ofNat 8 (powerSum 0 d), BitVec.ofNat 8 (powerSum 0 d / 256 + 0x55),
     BitVec.ofNat 8 (powerSum 1 d), BitVec.ofNat 8 (powerSum 1 d / 256 + 0x55),
     BitVec.ofNat 8 (powerSum 2 d), BitVec.ofNat 8 (powerSum 2 d / 256 + 0x55),
     0x5A, 0x5A]

theorem assemble_data (d : Data) (c : Check) (i : Nat) (h : i < 64) :
    (assemble d c)[i]'(by omega) = d[i] := by
  simp [assemble, h]

theorem assemble_check (d : Data) (chk : Check) (j : Nat) (h : j < 8) :
    (assemble d chk)[64 + j]'(by omega) = chk[j] := by
  simp [assemble]

/-- The distance of two lines, symbol by symbol: first the data symbols, then the check symbols. -/
theorem symbolDistance_split (a b : StoredLine) :
    symbolDistance a b =
      (∑ i : Fin 64, if a[i.val] ≠ b[i.val] then 1 else 0)
        + ∑ j : Fin 8, if a[64 + j.val] ≠ b[64 + j.val] then 1 else 0 := by
  rw [symbolDistance, Finset.card_filter]
  exact Fin.sum_univ_add (a := 64) (b := 8) fun i : Fin 72 => if a[i.val] ≠ b[i.val] then 1 else 0

theorem data_sum_eq_card (a b : Data) (c e : Check) :
    (∑ i : Fin 64, if (assemble a c)[i.val] ≠ (assemble b e)[i.val] then 1 else 0)
      = (Finset.univ.filter fun i : Fin 64 => a[i.val] ≠ b[i.val]).card := by
  rw [Finset.card_filter]
  exact Finset.sum_congr rfl fun i _ => by
    rw [assemble_data _ _ _ i.isLt, assemble_data _ _ _ i.isLt]

theorem check_sum_le (x y : StoredLine) :
    (∑ j : Fin 8, if x[64 + j.val] ≠ y[64 + j.val] then 1 else 0) ≤ symbolDistance x y := by
  rw [symbolDistance_split]; omega

theorem sample_high (d : Data) (k : Nat) : powerSum k d / 256 = 0 ∨ powerSum k d / 256 = 1 := by
  have : powerSum k d < 257 := Nat.mod_lt _ (by norm_num)
  omega

/-- The five check bytes of the sample code that take no blank value. -/
theorem sample_guard (d : Data) :
    (∀ j : Nat, (h : j < 8) → (j % 2 = 1 ∨ j = 6) →
      (sampleCheck d)[j] = 0x55 ∨ (sampleCheck d)[j] = 0x56 ∨ (sampleCheck d)[j] = 0x5A) := by
  intro j h hj
  have h0 := sample_high d 0
  have h1 := sample_high d 1
  have h2 := sample_high d 2
  have : j = 1 ∨ j = 3 ∨ j = 5 ∨ j = 6 ∨ j = 7 := by omega
  rcases this with rfl | rfl | rfl | rfl | rfl
  · rcases h0 with e | e <;> simp [sampleCheck, e]
  · rcases h1 with e | e <;> simp [sampleCheck, e]
  · rcases h2 with e | e <;> simp [sampleCheck, e]
  · simp [sampleCheck]
  · simp [sampleCheck]

/-- Lines that differ in check symbols 1, 3, 5, 6 and 7 are far apart. -/
theorem far_of_guard (x y : StoredLine)
    (h : ∀ j : Nat, (hj : j < 8) → (j % 2 = 1 ∨ j = 6) → x[64 + j] ≠ y[64 + j]) :
    4 ≤ symbolDistance x y := by
  refine le_trans ?_ (check_sum_le x y)
  have h1 := h 1 (by norm_num) (by norm_num)
  have h3 := h 3 (by norm_num) (by norm_num)
  have h5 := h 5 (by norm_num) (by norm_num)
  have h7 := h 7 (by norm_num) (by norm_num)
  rw [Fin.sum_univ_eight]
  simp only [show ((1 : Fin 8) : Nat) = 1 from rfl, show ((3 : Fin 8) : Nat) = 3 from rfl,
    show ((5 : Fin 8) : Nat) = 5 from rfl, show ((7 : Fin 8) : Nat) = 7 from rfl]
  rw [if_pos h1, if_pos h3, if_pos h5, if_pos h7]
  omega

theorem sample_void_far (a : Data) :
    4 ≤ symbolDistance (voidLine sampleCheck) (assemble a (sampleCheck a)) := by
  refine far_of_guard _ _ fun j hj hg => ?_
  rw [voidLine, assemble_check _ _ _ hj, assemble_check _ _ _ hj, Vector.getElem_map]
  rcases sample_guard zeroData j hj hg with e | e | e <;>
    rcases sample_guard a j hj hg with e' | e' | e' <;> rw [e, e'] <;> decide

theorem sample_blank_far (v : Byte) (hv : v = 0x00 ∨ v = 0xFF) :
    (∀ a : Data, 4 ≤ symbolDistance (Vector.replicate 72 v) (assemble a (sampleCheck a)))
      ∧ 4 ≤ symbolDistance (Vector.replicate 72 v) (voidLine sampleCheck) := by
  constructor
  · intro a
    refine far_of_guard _ _ fun j hj hg => ?_
    rw [assemble_check _ _ _ hj, Vector.getElem_replicate]
    rcases sample_guard a j hj hg with e | e | e <;> rcases hv with rfl | rfl <;> rw [e] <;> decide
  · refine far_of_guard _ _ fun j hj hg => ?_
    rw [voidLine, assemble_check _ _ _ hj, Vector.getElem_replicate, Vector.getElem_map]
    rcases sample_guard zeroData j hj hg with e | e | e <;> rcases hv with rfl | rfl <;> rw [e] <;> decide

/-- Each weighted sum in which two data differ costs one check symbol at least. -/
theorem sample_check_sum (a b : Data) :
    (if powerSum 0 a ≠ powerSum 0 b then 1 else 0) + (if powerSum 1 a ≠ powerSum 1 b then 1 else 0)
        + (if powerSum 2 a ≠ powerSum 2 b then 1 else 0)
      ≤ ∑ j : Fin 8, if (assemble a (sampleCheck a))[64 + j.val]
          ≠ (assemble b (sampleCheck b))[64 + j.val] then 1 else 0 := by
  have pair : ∀ k, powerSum k a ≠ powerSum k b →
      BitVec.ofNat 8 (powerSum k a) ≠ BitVec.ofNat 8 (powerSum k b)
        ∨ BitVec.ofNat 8 (powerSum k a / 256 + 0x55) ≠ BitVec.ofNat 8 (powerSum k b / 256 + 0x55) := by
    intro k hk
    by_contra hc
    push Not at hc
    have e1 := congrArg BitVec.toNat hc.1
    have e2 := congrArg BitVec.toNat hc.2
    simp only [BitVec.toNat_ofNat] at e1 e2
    have la : powerSum k a < 257 := Nat.mod_lt _ (by norm_num)
    have lb : powerSum k b < 257 := Nat.mod_lt _ (by norm_num)
    omega
  have at' : ∀ (d : Data) (j : Fin 8), (assemble d (sampleCheck d))[64 + j.val] = (sampleCheck d)[j.val] :=
    fun d j => assemble_check d _ j.val j.isLt
  simp only [at', Fin.sum_univ_eight]
  have split2 : ∀ (P Q R : Prop) [Decidable P] [Decidable Q] [Decidable R], (P → Q ∨ R) →
      (if P then 1 else 0) ≤ (if Q then 1 else 0) + (if R then 1 else 0) := by
    intro P Q R _ _ _ hpq
    split_ifs <;> simp_all
  have p0 := split2 _ _ _ (pair 0)
  have p1 := split2 _ _ _ (pair 1)
  have p2 := split2 _ _ _ (pair 2)
  change _ ≤ (if BitVec.ofNat 8 (powerSum 0 a) ≠ BitVec.ofNat 8 (powerSum 0 b) then 1 else 0)
    + (if BitVec.ofNat 8 (powerSum 0 a / 256 + 0x55) ≠ BitVec.ofNat 8 (powerSum 0 b / 256 + 0x55) then 1 else 0)
    + (if BitVec.ofNat 8 (powerSum 1 a) ≠ BitVec.ofNat 8 (powerSum 1 b) then 1 else 0)
    + (if BitVec.ofNat 8 (powerSum 1 a / 256 + 0x55) ≠ BitVec.ofNat 8 (powerSum 1 b / 256 + 0x55) then 1 else 0)
    + (if BitVec.ofNat 8 (powerSum 2 a) ≠ BitVec.ofNat 8 (powerSum 2 b) then 1 else 0)
    + (if BitVec.ofNat 8 (powerSum 2 a / 256 + 0x55) ≠ BitVec.ofNat 8 (powerSum 2 b / 256 + 0x55) then 1 else 0)
    + (if (0x5A : Byte) ≠ 0x5A then 1 else 0) + (if (0x5A : Byte) ≠ 0x5A then 1 else 0)
  omega

/-- Equal sums, read modulo 257: the differences of the data bytes, weighted, cancel over the bytes that differ. -/
theorem powerSum_eq (k : Nat) (a b : Data) (h : powerSum k a = powerSum k b) :
    ∑ i ∈ Finset.univ.filter (fun i : Fin 64 => a[i.val] ≠ b[i.val]),
      ((i.val + 1 : Nat) : ZMod 257) ^ k * ((a[i.val].toNat : ZMod 257) - b[i.val].toNat) = 0 := by
  have hz : ((∑ i : Fin 64, (i.val + 1) ^ k * a[i.val].toNat : Nat) : ZMod 257)
      = ((∑ i : Fin 64, (i.val + 1) ^ k * b[i.val].toNat : Nat) : ZMod 257) :=
    (ZMod.natCast_eq_natCast_iff' _ _ _).2 h
  push_cast at hz
  rw [Finset.sum_filter]
  rw [← sub_eq_zero, ← Finset.sum_sub_distrib] at hz
  refine Eq.trans (Finset.sum_congr rfl fun i _ => ?_) hz
  split_ifs with e
  · push_cast; ring
  · push Not at e; rw [e]; ring

theorem weight_ne (n : Nat) (h0 : 0 < n) (h : n < 257) : (n : ZMod 257) ≠ 0 := by
  rw [Ne, ZMod.natCast_eq_zero_iff]
  exact fun hd => absurd (Nat.le_of_dvd h0 hd) (by omega)

theorem weight_sub_ne (i j : Fin 64) (h : i ≠ j) :
    ((i.val + 1 : Nat) : ZMod 257) - ((j.val + 1 : Nat) : ZMod 257) ≠ 0 := by
  rw [sub_ne_zero, Ne, ZMod.natCast_eq_natCast_iff']
  have := Fin.val_ne_of_ne h
  have := i.isLt
  have := j.isLt
  omega

theorem delta_ne (x y : Byte) (h : x ≠ y) : (x.toNat : ZMod 257) - (y.toNat : ZMod 257) ≠ 0 := by
  rw [sub_ne_zero, Ne, ZMod.natCast_eq_natCast_iff']
  intro e
  have := x.isLt
  have := y.isLt
  exact h (BitVec.eq_of_toNat_eq (by omega))

/-- A nonempty set of at most three differing bytes cannot hide from the weighted sums. -/
theorem sample_sums_differ (a b : Data) (D : Finset (Fin 64)) (hpos : 0 < D.card)
    (hmem : ∀ i ∈ D, a[i.val] ≠ b[i.val])
    (S : ∀ k, powerSum k a = powerSum k b → ∑ i ∈ D,
      ((i.val + 1 : Nat) : ZMod 257) ^ k * ((a[i.val].toNat : ZMod 257) - b[i.val].toNat) = 0) :
    4 ≤ D.card + ((if powerSum 0 a ≠ powerSum 0 b then 1 else 0)
      + (if powerSum 1 a ≠ powerSum 1 b then 1 else 0) + (if powerSum 2 a ≠ powerSum 2 b then 1 else 0)) := by
  have : Fact (Nat.Prime 257) := ⟨by norm_num⟩
  have S0 := S 0
  have S1 := S 1
  have S2 := S 2
  clear S
  generalize powerSum 0 a = a0, powerSum 0 b = b0, powerSum 1 a = a1, powerSum 1 b = b1,
    powerSum 2 a = a2, powerSum 2 b = b2 at S0 S1 S2 ⊢
  by_cases h4 : 4 ≤ D.card
  · omega
  have h123 : D.card = 1 ∨ D.card = 2 ∨ D.card = 3 := by omega
  rcases h123 with h1 | h2 | h3
  · obtain ⟨i, hi⟩ := Finset.card_eq_one.1 h1
    have d := delta_ne _ _ (hmem i (by simp [hi]))
    have w := weight_ne (i.val + 1) (by omega) (by omega)
    rw [h1]
    rw [hi] at S0 S1 S2
    simp only [Finset.sum_singleton] at S0 S1 S2
    have n0 : a0 ≠ b0 := fun e => mul_ne_zero (pow_ne_zero _ w) d (S0 e)
    have n1 : a1 ≠ b1 := fun e => mul_ne_zero (pow_ne_zero _ w) d (S1 e)
    have n2 : a2 ≠ b2 := fun e => mul_ne_zero (pow_ne_zero _ w) d (S2 e)
    rw [if_pos n0, if_pos n1, if_pos n2]
  · obtain ⟨i, j, hij, hi⟩ := Finset.card_eq_two.1 h2
    have d := delta_ne _ _ (hmem i (by simp [hi]))
    have wi := weight_ne (i.val + 1) (by omega) (by omega)
    have ws := weight_sub_ne i j hij
    have wp := weight_ne (i.val + 1 + (j.val + 1)) (by omega) (by omega)
    rw [h2]
    rw [hi] at S0 S1 S2
    simp only [Finset.sum_pair hij] at S0 S1 S2
    rw [Nat.cast_add] at wp
    generalize ((i.val + 1 : Nat) : ZMod 257) = x at *
    generalize ((j.val + 1 : Nat) : ZMod 257) = y at *
    generalize (a[i.val].toNat : ZMod 257) - (b[i.val].toNat : ZMod 257) = p at *
    generalize (a[j.val].toNat : ZMod 257) - (b[j.val].toNat : ZMod 257) = q at *
    have n01 : ¬(a0 = b0 ∧ a1 = b1) := fun e =>
      mul_ne_zero ws d (by linear_combination S1 e.2 - y * S0 e.1)
    have n02 : ¬(a0 = b0 ∧ a2 = b2) := fun e =>
      mul_ne_zero (mul_ne_zero ws wp) d (by linear_combination S2 e.2 - y ^ 2 * S0 e.1)
    have n12 : ¬(a1 = b1 ∧ a2 = b2) := fun e =>
      mul_ne_zero (mul_ne_zero wi ws) d (by linear_combination S2 e.2 - y * S1 e.1)
    by_cases e0 : a0 = b0 <;> by_cases e1 : a1 = b1 <;> by_cases e2 : a2 = b2 <;> simp_all
  · obtain ⟨i, j, l, hij, hil, hjl, hi⟩ := Finset.card_eq_three.1 h3
    have d := delta_ne _ _ (hmem i (by simp [hi]))
    have wij := weight_sub_ne i j hij
    have wil := weight_sub_ne i l hil
    rw [h3]
    rw [hi, Finset.sum_insert (by simp [hij, hil]), Finset.sum_pair hjl] at S0 S1 S2
    generalize ((i.val + 1 : Nat) : ZMod 257) = x at *
    generalize ((j.val + 1 : Nat) : ZMod 257) = y at *
    generalize ((l.val + 1 : Nat) : ZMod 257) = z at *
    generalize (a[i.val].toNat : ZMod 257) - (b[i.val].toNat : ZMod 257) = p at *
    generalize (a[j.val].toNat : ZMod 257) - (b[j.val].toNat : ZMod 257) = q at *
    generalize (a[l.val].toNat : ZMod 257) - (b[l.val].toNat : ZMod 257) = r at *
    have n : ¬(a0 = b0 ∧ a1 = b1 ∧ a2 = b2) :=
      fun e => mul_ne_zero (mul_ne_zero wij wil) d
        (by linear_combination S2 e.2.2 - (y + z) * S1 e.2.1 + y * z * S0 e.1)
    by_cases e0 : a0 = b0 <;> by_cases e1 : a1 = b1 <;> by_cases e2 : a2 = b2 <;> simp_all

theorem sample_valid_far (a b : Data) (hab : a ≠ b) :
    4 ≤ symbolDistance (assemble a (sampleCheck a)) (assemble b (sampleCheck b)) := by
  rw [symbolDistance_split, data_sum_eq_card]
  refine le_trans (sample_sums_differ a b _ ?_ (fun i hi => (Finset.mem_filter.1 hi).2)
    fun k h => powerSum_eq k a b h) (Nat.add_le_add_left (sample_check_sum a b) _)
  rw [Finset.card_pos]
  by_contra hne
  rw [Finset.not_nonempty_iff_eq_empty, Finset.filter_eq_empty_iff] at hne
  exact hab (Vector.ext fun i hi => not_not.1 (hne (Finset.mem_univ ⟨i, hi⟩)))

theorem sample_lawful : CodeLaws sampleCheck :=
  ⟨sample_valid_far, sample_void_far, sample_blank_far⟩

/-! ### The bridge's code -/

/-- The check bytes an implementation computes for 64 data bytes: UNINTERPRETED, any function (the manual gives
no formula for the code, R26). -/
opaque rawCheckBytes : Data → Check

/-- The data are finitely many. -/
@[reducible] def dataFintype : Fintype Data :=
  Fintype.ofEquiv (Fin 64 → Fin 256)
    { toFun := fun f => Vector.ofFn fun i => BitVec.ofFin (f i)
      invFun := fun d i => d[i.val].toFin
      left_inv := fun f => by ext i; simp
      right_inv := fun d => by ext i hi; simp }

/-- A property of all data is a finite question. -/
@[reducible] def forallDataDecidable (p : Data → Prop) (h : ∀ d, Decidable (p d)) : Decidable (∀ d, p d) :=
  @Fintype.decidableForallFintype Data p h dataFintype

/-- Whether a code has the properties of R26 is a finite question (never computed: it only splits the two cases
of `lawfulCode`). -/
@[reducible] def codeLawsDecidable (f : Data → Check) : Decidable (CodeLaws f) :=
  let far (l : StoredLine) := forallDataDecidable
    (fun a => 4 ≤ symbolDistance l (assemble a (f a))) fun _ => inferInstance
  let valid := forallDataDecidable
    (fun a => ∀ b, a ≠ b → 4 ≤ symbolDistance (assemble a (f a)) (assemble b (f b)))
    fun a => forallDataDecidable
      (fun b => a ≠ b → 4 ≤ symbolDistance (assemble a (f a)) (assemble b (f b))) fun _ => inferInstance
  let blank (v : Byte) : Decidable ((∀ a : Data, 4 ≤ symbolDistance (Vector.replicate 72 v) (assemble a (f a)))
      ∧ 4 ≤ symbolDistance (Vector.replicate 72 v) (voidLine f)) :=
    @instDecidableAnd _ _ (far _) inferInstance
  @decidable_of_iff _ _
    (show (_ ∧ _ ∧ _ ∧ _) ↔ CodeLaws f from
      ⟨fun h => ⟨h.1, h.2.1, fun _ hv => hv.elim (fun e => e ▸ h.2.2.1) (fun e => e ▸ h.2.2.2)⟩,
       fun h => ⟨h.valid_far, h.void_far, h.blank_far _ (.inl rfl), h.blank_far _ (.inr rfl)⟩⟩)
    (@instDecidableAnd _ _ valid (@instDecidableAnd _ _ (far _) (@instDecidableAnd _ _ (blank 0x00) (blank 0xFF))))

/-- The code of the bridge with the properties it has: any code that has them can be `rawCheckBytes`, and one
that does not have them is no implementation. -/
def lawfulCode : Subtype CodeLaws :=
  match codeLawsDecidable rawCheckBytes with
  | isTrue h => ⟨rawCheckBytes, h⟩
  | isFalse _ => ⟨sampleCheck, sample_lawful⟩

/-- R27: the 8 valid check bytes of 64 data bytes. -/
def checkBytes (d : Data) : Check := lawfulCode.val d

/-- R26, items 1 to 3, of the bridge's code. -/
theorem checkBytes_lawful : CodeLaws checkBytes := lawfulCode.property

end Sys2Proof.Config
end

