-- ==== Sys2Proof/Machine/Coder.lean ====
section
/-! DEFINITION. The check coder (2.1 to 2.3): encoding, classification, the void form, and what each write carries.
It holds no state (R25); its code is `Config.checkBytes`, of which only R26 is known. -/

namespace Sys2Proof.Machine

/-- R27: the valid stored line of 64 data bytes. -/
def encodeLine (d : Data) : StoredLine := assemble d (Config.checkBytes d)

/-- R31: the void form. -/
def voidForm : StoredLine := Config.voidLine Config.checkBytes

/-- R26: whether a stored line is valid: its check symbols are the valid ones for its data symbols. -/
def isValid (l : StoredLine) : Bool := decide (l = encodeLine (dataOf l))

/-- The lines that differ from `l` in one symbol or none, with the position looked at. -/
def neighbours (l : StoredLine) : List (Fin 72 × StoredLine) :=
  (List.finRange 72).flatMap fun p => (List.finRange 256).map fun v => (p, l.set p.val (BitVec.ofFin v))

/-- R28, condition 3: a valid stored line that differs from `l` in one symbol, with that symbol's position. -/
def findCorrection (l : StoredLine) : Option (Fin 72 × StoredLine) :=
  (neighbours l).find? fun c => isValid c.2

/-- R28: the outcome of a stored line and the data returned with it. The conditions are tested in order. -/
def classify (l : StoredLine) : Finding × Data :=
  if isValid l then (.clean, dataOf l)
  else if l = voidForm then (.void, zeroData)
  else match findCorrection l with
    | some (p, v) => (.corrected p, dataOf v)
    | none => (.uncorrectable, dataOf l)

/-- R37: the merged data: the merge's byte where the mask entry is set, the base line's where it is clear. -/
def mergeData (mask : Mask) (new base : Data) : Data :=
  Vector.ofFn fun i : Fin 64 => if mask.getLsbD i.val then new[i.val] else base[i.val]

/-- R32: the entries whose write phase sends the void form. -/
def Entry.writesVoid (e : Entry) : Bool :=
  match e.origin, e.finding with
  | .scan, some .uncorrectable => true
  | .repair, some .uncorrectable => true
  | .copy, some .uncorrectable => true
  | .copy, some .void => true
  | _, _ => false

/-- R35: the stored line an entry's SWRITE carries. -/
def Entry.storedLine (e : Entry) : StoredLine :=
  if e.writesVoid then voidForm else encodeLine (e.data.getD zeroData)

end Sys2Proof.Machine
end

