-- ==== Sys2Proof/Machine/Fill.lean ====
section
/-! DEFINITION. The fill engine at work (chapter Region Fill): the issue of fill writes, the watermark, and the three
ways a fill ends. -/

namespace Sys2Proof.Machine

/-- Replace the fill engine's state. -/
def State.setFill (f : Option Fill) (s : State) : State := { s with patrol := { s.patrol with fill := f } }

/-- R99: the repair queue is not empty, the patrol pool has a free entry and the memory link is UP. -/
def State.repairReady (s : State) : Bool :=
  !s.patrol.repairQueue.isEmpty && (s.slotFor .patrol).isSome && decide (s.memory.link = .up)

/-- A fill entry (R110). -/
def fillEntry (region : Fin 32) (l : LineNo) : Entry :=
  { origin := .fill, line := l, physical := none, region := some region, mode := none, data := some zeroData,
    mask := none, phase := .waitingLine, writing := true, finding := none }

/-- R109: the line for which the engine would create the next entry, if it may. -/
def State.fillReady (s : State) : Option (Fin 64 × Fill × LineNo) :=
  match s.patrol.fill, s.slotFor .patrol with
  | some f, some i =>
    match f.cursor with
    | some l => if f.phase = .issuing then some (i, f, l) else none
    | none => none
  | _, _ => none

/-- R109: one fill entry is created for the line at the issue cursor, and the cursor goes on by one line, past the
limit to ALL_ISSUED. -/
def State.fillOne (i : Fin 64) (f : Fill) (l : LineNo) (s : State) : State :=
  let last := (s.region f.region).all fun r => r.limit = l
  (s.setFill (some
    { f with cursor := if last then none else some (l + 1), outstanding := f.outstanding ++ [l] })).create i
    (fillEntry f.region l)

/-- R109: entries are created one after another until the pool is full or the cursor has passed the limit; at most
`n` of them. -/
def State.fillSome : Nat → State → State
  | 0, s => s
  | n + 1, s =>
    match s.fillReady with
    | some (i, f, l) => (s.fillOne i f l).fillSome n
    | none => s

/-- R101, R109: the engine issues what it may, unless the repair queue takes the free entry first. The patrol pool's
ceiling bounds the entries. -/
def State.fillIssue (s : State) : State := if s.repairReady then s else s.fillSome 6

/-- The lower of two lines, where either may be absent. -/
def lowerLine (a : Option LineNo) (l : LineNo) : Option LineNo :=
  match a with
  | none => some l
  | some m => if l.toNat < m.toNat then some l else some m

/-- R111: the lowest line whose fill entry has not been created or whose fill write has not been acknowledged; none if
every line has been. -/
def Fill.lowest (f : Fill) : Option LineNo := (f.outstanding ++ f.unwritten).foldl lowerLine f.cursor

/-- A region leaves FILLING and the engine returns to IDLE (R106). All of the engine's state is discarded there, the
failed line with it, of which R106 does not speak: log entry 21, DESIGN CHOICE. -/
def State.endFilling (i : Fin 32) (p : RegionPhase) (s : State) : State :=
  (s.modifyRegion i fun r => { r with phase := p }).setFill none

/-- R112: the fill completes. -/
def State.fillComplete (f : Fill) (s : State) : State :=
  ((s.endFilling f.region .online).modifyRegion f.region fun r => { r with cursor := r.base }).raise
    { kind := .fillDone, region := some f.region, line := (s.region f.region).map (·.limit) }

/-- R113: the stopped fill ends. -/
def State.fillStopped (f : Fill) (s : State) : State :=
  (s.endFilling f.region .offline).raise
    { kind := .fillStopped, region := some f.region,
      line := if f.watermark.isSome then f.watermark else (s.region f.region).map (·.limit),
      reason := some (if f.watermark.isSome then .partialFill else .allWritten) }

/-- The reason of FILL_FAILED for a failed write (R114). -/
def FillFailure.reason : FillFailure → Reason
  | .targetError => .targetError
  | .timeout => .timeout

/-- R114: the failing fill ends. -/
def State.fillFailed (f : Fill) (s : State) : State :=
  (s.endFilling f.region .offline).raise
    { kind := .fillFailed, region := some f.region, line := f.failed.map (·.line),
      physical := f.failed.map (·.physical), reason := f.failed.map (·.reason.reason) }

/-- R112, R113, R114: what the engine does once its state is as `f`: it completes, ends if nothing is outstanding, or
goes on. -/
def State.fillAdvance (f : Fill) (s : State) : State :=
  match f.phase with
  | .issuing => if f.watermark = none then s.fillComplete f else s.setFill (some f)
  | .stopping => if f.outstanding = [] then s.fillStopped f else s.setFill (some f)
  | .failing => if f.outstanding = [] then s.fillFailed f else s.setFill (some f)

/-- The engine's state after the write of line `l` is acknowledged: the line leaves the outstanding lines and the
watermark is set afresh (R111). -/
def Fill.acknowledge (l : LineNo) (f : Fill) : Fill :=
  let g := { f with outstanding := f.outstanding.filter (· ≠ l) }
  { g with watermark := g.lowest }

/-- R111: the write of line `l` is acknowledged with status OK. -/
def State.fillAcknowledged (l : LineNo) (s : State) : State :=
  match s.patrol.fill with
  | none => s
  | some f => s.fillAdvance (f.acknowledge l)

/-- The engine's state after the write of line `l` fails (R114): the first failure is recorded. -/
def Fill.fail (l physical : LineNo) (why : FillFailure) (f : Fill) : Fill :=
  { f with
    phase := .failing
    outstanding := f.outstanding.filter (· ≠ l)
    unwritten := f.unwritten ++ [l]
    failed := if f.phase = .failing then f.failed else some { line := l, physical := physical, reason := why } }

/-- R114: the write of line `l` fails. -/
def State.fillWriteFailed (l physical : LineNo) (why : FillFailure) (s : State) : State :=
  match s.patrol.fill with
  | none => s
  | some f => s.fillAdvance (f.fail l physical why)

/-- R115: the fill ends at a memory-link loss. -/
def State.fillLost (s : State) : State :=
  match s.patrol.fill with
  | none => s
  | some f =>
    (s.endFilling f.region .offline).raise
      (if f.phase = .failing then
        { kind := .fillFailed, region := some f.region, line := f.failed.map (·.line),
          physical := f.failed.map (·.physical), reason := f.failed.map (·.reason.reason) }
      else { kind := .fillFailed, region := some f.region, line := f.watermark, reason := some .linkLost })

end Sys2Proof.Machine
end

