-- ==== Sys2Proof/Machine/Retirement.lean ====
section
/-! DEFINITION. The retirement unit at work (8.3, 8.4): the checks of a retirement, the retire queue, the start of a
copy, its success and its failure, and what a memory-link up does to the spare area. -/

namespace Sys2Proof.Machine

/-- What the checks of R140 answer: the first that fails, or acceptance with the lowest-numbered FREE spare. -/
inductive RetireAnswer where
  | accepted (spare : Nat)
  | noSpareArea
  | beyondCapacity
  | inSpareArea
  | pending
  | queueFull
  | noneFree
  | unavailable
deriving DecidableEq, Repr

/-- The lowest-numbered FREE spare (R140). -/
def SpareArea.lowestFree (a : SpareArea) : Option Nat := a.spares.findIdx? (· = .free)

/-- Whether a line stands in the retire queue. -/
def Retirement.queued (r : Retirement) (l : LineNo) : Bool := r.queue.any fun e => e.line = l

/-- Whether a line is being copied: from the creation of the copy entry until success or failure (R139). -/
def Retirement.copying (r : Retirement) (l : LineNo) : Bool := r.copy.any fun j => j.line = l

/-- R140: the checks of a retirement, in order. -/
def State.retireCheck (l : LineNo) (s : State) : RetireAnswer :=
  match s.retirement.area with
  | none => .noSpareArea
  | some a =>
    if ¬ s.memory.capacity.any (l.toNat < ·) then .beyondCapacity
    else if a.contains l then .inSpareArea
    else if s.retirement.queued l ∨ s.retirement.copying l then .pending
    else if 8 ≤ s.retirement.queue.length then .queueFull
    else match a.lowestFree with
      | none => .noneFree
      | some i => if s.retirement.unavailable then .unavailable else .accepted i

/-- R140: an accepted retirement reserves its spare and joins the end of the retire queue. -/
def State.enqueueRetire (l : LineNo) (o : RetireOrigin) (i : Nat) (s : State) : State :=
  let t := s.setSpare i .reserved
  { t with retirement := { t.retirement with queue := t.retirement.queue ++ [{ line := l, origin := o, spare := i }] } }

/-! ### The copy -/

/-- R143: the copy pool has no entry, the memory link is UP and the retire queue is not empty. -/
def State.copyReady (s : State) : Bool :=
  (s.slotFor .copy).isSome && decide (s.memory.link = .up) && !s.retirement.queue.isEmpty

/-- R143: the head leaves the queue and becomes a copy entry with the index of the region that contains the line, if
one does. No effect when the three conditions do not hold together. A copy that a write-back sends for is started as a step
of its own, after the entry that reported it has left the tracker (log entry 24, DESIGN CHOICE). -/
def State.copyStart (s : State) : State :=
  match s.slotFor .copy, s.memory.link, s.retirement.queue with
  | some i, .up, q :: rest =>
    State.create i
      { origin := .copy, line := q.line, physical := none, region := (s.lookup q.line).map (·.1), mode := none,
        data := none, mask := none, phase := .waitingLine, writing := false, finding := none }
      { s with retirement :=
          { s.retirement with queue := rest
                              copy := some { line := q.line, origin := q.origin, spare := q.spare, void := false } } }
  | _, _, _ => s

/-- The copy in progress ends: by success or by failure (R139). -/
def State.endCopy (s : State) : State := { s with retirement := { s.retirement with copy := none } }

/-- R146, item 2: the new spare becomes IN_USE; for a re-retire the old one becomes DEFECTIVE. -/
def State.moveSpares (job : CopyJob) (s : State) : State :=
  match s.retirement.entry job.line with
  | some m => if m.pending.isSome then (s.setSpare job.spare .inUse).setSpare m.spare .defective
              else s.setSpare job.spare .inUse
  | none => s.setSpare job.spare .inUse

/-- R146, item 1: the map entry becomes ACTIVE on the new spare. -/
def State.activateMap (job : CopyJob) (s : State) : State :=
  s.setMap (changeMap job.line
    (fun m =>
      { m with spare := job.spare, state := .active, pending := none, auto := decide (job.origin = .auto),
               void := job.void, time := some s.now })
    s.retirement.map)

/-- The physical line of spare `i`, if an area is defined. -/
def Retirement.spareLine (r : Retirement) (i : Nat) : Option LineNo := r.area.map (·.line i)

/-- R146: the retirement succeeds. -/
def State.copySucceed (region : Option (Fin 32)) (s : State) : State :=
  match s.retirement.copy with
  | none => s
  | some job =>
    (((((s.moveSpares job).activateMap job).forgetHistory fun e => e.line = job.line).dropRepairs
      fun l => l = job.line).endCopy).raise
      { kind := .retireDone, line := some job.line, region := region, spare := some job.spare,
        physical := s.retirement.spareLine job.spare, origin := some job.origin.event,
        reason := some (if job.void then .void else .data), requester := job.origin.name }

/-- R147: a copy that had become owner restores the map: a first retirement's entry is removed, a re-retire's returns
to ACTIVE on its old spare. -/
def State.restoreMap (job : CopyJob) (s : State) : State :=
  match s.retirement.entry job.line with
  | none => s
  | some m =>
    if m.pending.isSome then
      s.setMap (changeMap job.line (fun m => { m with state := .active, pending := none }) s.retirement.map)
    else s.setMap (s.retirement.map.filter fun m => m.line ≠ job.line)

/-- R147: the copy fails. Its spare is condemned if its write had been issued, and FREE again if not. -/
def State.copyFail (owner issued : Bool) (reason : Reason) (region : Option (Fin 32)) (s : State) : State :=
  match s.retirement.copy with
  | none => s
  | some job =>
    let t := s.setSpare job.spare (if issued then .defective else .free)
    let u := if owner then t.restoreMap job else t
    (u.endCopy.noticeEnded job.origin job.line).raise
      { kind := .retireFailed, line := some job.line, region := region, spare := some job.spare,
        origin := some job.origin.event, reason := some reason, requester := job.origin.name }

/-! ### The spare area at a memory-link up -/

/-- R136: one entry of the retire queue fails because the spare area became unavailable. -/
def State.failQueued (s : State) (q : RetireEntry) : State :=
  ((s.setSpare q.spare .free).noticeEnded q.origin q.line).raise
    { kind := .retireFailed, line := some q.line, spare := some q.spare, origin := some q.origin.event,
      reason := some .spareUnavailable, requester := q.origin.name }

/-- R136: a defined spare area is compared with the new capacity. -/
def State.clipSpares (capacity : Nat) (s : State) : State :=
  match s.retirement.area with
  | none => s
  | some a =>
    if capacity < a.base.toNat + a.spares.length then
      let t := State.raise { kind := .spareClipped, physical := some a.base, count := some a.spares.length }
        { s with retirement := { s.retirement with unavailable := true, queue := [] } }
      s.retirement.queue.foldl State.failQueued t
    else { s with retirement := { s.retirement with unavailable := false } }

end Sys2Proof.Machine
end

