-- ==== Sys2Proof/Machine/History.lean ====
section
/-! DEFINITION. The error history table at work (7.2, 7.3): counting a corrected write-back, inserting with eviction,
and the threshold test with the answers of the retirement unit. -/

namespace Sys2Proof.Machine

/-- Slot `i` of the table (R118). -/
def State.slot (s : State) (i : Fin 128) : Option HistoryEntry := s.history[i.val]

/-- Write slot `i`. -/
def State.setSlot (i : Fin 128) (e : Option HistoryEntry) (s : State) : State :=
  { s with history := s.history.set i.val e }

/-- The slot that holds a line's entry. -/
def State.historySlot (s : State) (l : LineNo) : Option (Fin 128) :=
  (List.finRange 128).find? fun i => (s.slot i).any fun e => e.line = l

/-- The lowest-numbered empty slot (R118). -/
def State.emptySlot (s : State) : Option (Fin 128) := (List.finRange 128).find? fun i => (s.slot i).isNone

/-- Whether entry `e` is evicted before `f`, both candidates: a lower count, or the same count and a greater age
(R122, items 2 and 3). -/
def HistoryEntry.before (now : Time) (e f : HistoryEntry) : Bool :=
  decide (e.count < f.count) || (decide (e.count = f.count) && decide (elapsed now f.updated < elapsed now e.updated))

/-- R122: the candidate to evict: not QUEUED, of the lowest count, the oldest, in the lowest-numbered slot. -/
def State.evictee (s : State) : Option (Fin 128 × HistoryEntry) :=
  (List.finRange 128).foldl
    (fun best i =>
      match s.slot i with
      | none => best
      | some e =>
        if e.retire = .queued then best
        else match best with
          | none => some (i, e)
          | some (j, f) => if e.before s.now f then some (i, e) else some (j, f))
    none

/-- The retire state as the reason of HISTORY_EVICT (R122); a QUEUED entry is never evicted. -/
def RetireState.reason : RetireState → Reason
  | .none => .none
  | .queued => .none
  | .deferred => .deferred

/-- R122: the slot a new entry takes, with the event of an eviction of count 2 or more. -/
def State.takeSlot (s : State) : Option (Fin 128 × List Notice) :=
  match s.emptySlot with
  | some i => some (i, [])
  | none =>
    match s.evictee with
    | none => none
    | some (i, e) =>
      some (i,
        if 2 ≤ e.count then
          [{ kind := .historyEvict, line := some e.line, region := some e.region, count := some e.count,
             reason := some e.retire.reason }]
        else [])

/-- Set the retire state of the entry in slot `i`. -/
def State.setRetireState (i : Fin 128) (x : RetireState) (s : State) : State :=
  s.setSlot i ((s.slot i).map fun e => { e with retire := x })

/-- R124: what the table does with the retirement unit's answer to an AUTO request for the entry in slot `i`. -/
def State.autoAnswer (i : Fin 128) (e : HistoryEntry) (a : RetireAnswer) (s : State) : State :=
  let about (k : EventKind) (why : Option Reason) (spare : Option Nat) : Notice :=
    { kind := k, line := some e.line, region := some e.region, count := some e.count, reason := why, spare := spare }
  match a with
  | .accepted spare =>
    ((s.enqueueRetire e.line .auto spare).setRetireState i .queued).raise (about .retireQueued none (some spare))
  | .noSpareArea => (s.setRetireState i .deferred).raise (about .sparesExhausted (some .noSpareArea) none)
  | .beyondCapacity => (s.setRetireState i .deferred).raise (about .retireDeferred (some .beyondCapacity) none)
  | .inSpareArea => s
  | .pending => s
  | .queueFull => (s.setRetireState i .deferred).raise (about .retireDeferred (some .queueFull) none)
  | .noneFree => (s.setRetireState i .deferred).raise (about .sparesExhausted (some .noneFree) none)
  | .unavailable => (s.setRetireState i .deferred).raise (about .sparesExhausted (some .unavailable) none)

/-- R123: the threshold test after a counted report. -/
def State.thresholdTest (i : Fin 128) (s : State) : State :=
  match s.slot i with
  | none => s
  | some e =>
    match s.region e.region with
    | none => s
    | some r =>
      if r.threshold ≠ 0 ∧ r.threshold ≤ e.count ∧ e.retire ≠ .queued then
        s.autoAnswer i e (s.retireCheck e.line)
      else s

/-- R121: a corrected write-back is reported. It is discarded outside its region's bounds; else it counts in the
line's entry, or in a new one, and the threshold test follows. -/
def State.reportWriteBack (l : LineNo) (region : Fin 32) (symbol : Fin 72) (origin : WriteBackOrigin)
    (s : State) : State :=
  match s.region region with
  | none => s
  | some r =>
    if ¬ r.contains l then s
    else match s.historySlot l with
      | some i =>
        (s.setSlot i ((s.slot i).map fun e =>
          { e with count := min (e.count + 1) 15, symbol := symbol, origin := origin, updated := s.now })).thresholdTest i
      | none =>
        match s.takeSlot with
        | none => s
        | some (i, events) =>
          ((s.setSlot i (some
            { line := l, region := region, count := 1, symbol := symbol, origin := origin, updated := s.now,
              retire := .none })).raiseAll events).thresholdTest i

end Sys2Proof.Machine
end

