-- ==== Sys2Proof/Machine/Patrol.lean ====
section
/-! DEFINITION. The patrol unit at work (chapter Patrol and Repair): scan slots, repair service, and what a scan or
repair entry does with its line. -/

namespace Sys2Proof.Machine

/-- A scan entry (R92). -/
def scanEntry (region : Fin 32) (l : LineNo) : Entry :=
  { origin := .scan, line := l, physical := none, region := some region, mode := some .correcting, data := none,
    mask := none, phase := .waitingLine, writing := false, finding := none }

/-- A repair entry (R99). -/
def repairEntry (region : Fin 32) (l : LineNo) : Entry :=
  { origin := .repair, line := l, physical := none, region := some region, mode := some .correcting, data := none,
    mask := none, phase := .waitingLine, writing := false, finding := none }

/-! ### Scan slots -/

/-- R90: a region is eligible for a scan slot. -/
def Region.eligible (r : Region) : Bool :=
  decide (r.phase = .online) && decide (r.mode = .correcting) && r.patrol

/-- The indices after the pointer in ascending order, wrapping from 31 to 0 and ending with the pointer (R90). -/
def roundFrom (p : Fin 32) : List (Fin 32) := (List.finRange 32).map fun k => p + 1 + k

/-- R90: the region a slot serves. -/
def State.chooseRegion (s : State) : Option (Fin 32) :=
  (roundFrom s.patrol.pointer).find? fun i => (s.region i).any Region.eligible

/-- R91: at most `n` scan entries are created from the region's cursor; the burst ends at the limit, where the cursor
returns to the base and the pass count goes on by one. -/
def State.scanBurst (i : Fin 32) : Nat → State → State
  | 0, s => s
  | n + 1, s =>
    match s.region i, s.slotFor .patrol with
    | some r, some slot =>
      let t := s.create slot (scanEntry i r.cursor)
      if r.cursor = r.limit then
        let u := t.modifyRegion i fun r => { r with cursor := r.base, passes := r.passes + 1 }
        if r.reportPasses then
          u.raise { kind := .passDone, region := some i, count := some (r.passes + 1).toNat }
        else u
      else (t.modifyRegion i fun r => { r with cursor := r.cursor + 1 }).scanBurst i n
    | _, _ => s

/-- R89: the four conditions of a scan slot. -/
def State.slotOpen (s : State) : Bool :=
  s.patrol.scanEnabled && decide (s.memory.link = .up) && s.patrol.fill.isNone && (s.slotFor .patrol).isSome

/-- The slot timer has run its period. -/
def State.slotDue (s : State) : Bool := decide (s.patrol.slotPeriod ≤ elapsed s.now s.patrol.slotStart)

/-- The timer runs on: the next period begins where the last one ended (R87, R89). -/
def State.nextSlot (s : State) : State :=
  { s with patrol := { s.patrol with slotStart := s.patrol.slotStart + BitVec.ofNat 32 s.patrol.slotPeriod } }

/-- R89 to R91: what a slot does: it is passed over, or serves the chosen region. -/
def State.serveSlot (s : State) : State :=
  if s.slotOpen then
    match s.chooseRegion with
    | none => s
    | some i =>
      State.scanBurst i (((s.region i).map (·.burst)).getD 0) { s with patrol := { s.patrol with pointer := i } }
  else s

/-- An expiry of the slot timer; no effect while the period runs. -/
def State.slotExpiry (s : State) : State := if s.slotDue then s.nextSlot.serveSlot else s

/-! ### Repair service -/

/-- R99: whether a line at the head of the repair queue gets a repair entry, and with which region. -/
def State.repairRegion (s : State) (l : LineNo) : Option (Fin 32) :=
  match s.lookup l with
  | some (i, r) => if r.phase = .online ∧ r.mode = .correcting then some i else none
  | none => none

/-- R99: the head leaves the queue, and is dropped or made a repair entry. No effect when the three conditions do not
hold together. -/
def State.repairService (s : State) : State :=
  match s.patrol.repairQueue, s.slotFor .patrol, s.memory.link with
  | l :: rest, some slot, .up =>
    let t := { s with patrol := { s.patrol with repairQueue := rest } }
    match s.repairRegion l with
    | some i => t.create slot (repairEntry i l)
    | none => t
  | _, _, _ => s

/-- At most `n` services, one after another (R99). -/
def State.serveRepairsFor : Nat → State → State
  | 0, s => s
  | n + 1, s => if s.repairReady then s.repairService.serveRepairsFor n else s

/-- R99: service goes on with each new head until the queue is empty or the patrol pool is full; each takes a line out of
the queue. -/
def State.serveRepairs (s : State) : State := s.serveRepairsFor s.patrol.repairQueue.length

/-! ### What a scan or repair entry does with its line -/

/-- R93: the read of a scan or repair entry was classified. -/
def State.patrolRead (i : Fin 64) (e : Entry) (f : Finding) (d : Data) (s : State) : State :=
  match f with
  | .clean => s.release i
  | .void => s.release i
  | .corrected p => s.wait i { e with writing := true, finding := some (.corrected p), data := some d }
  | .uncorrectable => s.wait i { e with writing := true, finding := some .uncorrectable }

/-- The origin a scan's or repair's write-back is reported with (R120). -/
def Origin.writeBack : Origin → WriteBackOrigin
  | .requester _ => .merge
  | .scan => .scan
  | .repair => .repair
  | .fill => .repair
  | .copy => .repair

/-- Whether a region's report-corrections flag is set, as it stands (R13, R58, R94). -/
def State.reportsCorrections (s : State) (i : Fin 32) : Bool := (s.region i).any (·.reportCorrections)

/-- R94: the write of a scan or repair entry was acknowledged. REPAIRED precedes the table's events (R155). The entry
leaves the tracker before a copy that its write-back sends for starts, which may take its index (log entry 24, DESIGN
CHOICE). -/
def State.patrolWritten (i : Fin 64) (e : Entry) (s : State) : State :=
  let region := e.region.getD 0
  let t :=
    match e.finding with
    | some (.corrected p) =>
      State.reportWriteBack e.line region p e.origin.writeBack
        (if s.reportsCorrections region then
          s.raise
            { kind := .repaired, line := some e.line, physical := e.physical, region := e.region,
              origin := some e.origin.event, symbol := some p }
        else s)
    | some .uncorrectable =>
      s.raise
        { kind := .lineVoided, line := some e.line, physical := e.physical, region := e.region,
          origin := some e.origin.event }
    | some .clean => s
    | some .void => s
    | none => s
  t.release i

end Sys2Proof.Machine
end

