-- ==== Sys2Proof/Machine/Tracker.lean ====
section
/-! DEFINITION. The request tracker at work: the region decision and acceptance (1.2, 3.4), the passing of ownership
(3.2), and the ends of requester entries (3.7 to 3.12). -/

namespace Sys2Proof.Machine

/-! ### The region decision -/

/-- The answers of the region decision (R6, R7). -/
inductive Decision where
  | unmapped
  | offline
  | notReady
  | denied (region : Fin 32)
  | admitted (region : Fin 32) (mode : Mode)
deriving DecidableEq, Repr

/-- R6: a READ needs READ or READ_WRITE; a WRITE and a MERGE need READ_WRITE. -/
def Rights.allows : Rights → Kind → Bool
  | .readWrite, _ => true
  | .read, .read => true
  | .read, .write => false
  | .read, .merge => false
  | .none, _ => false

/-- The rights of a requester in a region; a number above 15 never gets here (R51). -/
def Region.rightsFor (r : Region) (requester : Byte) : Rights :=
  if h : requester.toNat < 16 then r.rights[requester.toNat] else .none

/-- R6, check 3: the line is at or above the watermark of the fill of region `i`. -/
def State.aboveWatermark (s : State) (i : Fin 32) (l : LineNo) : Bool :=
  s.patrol.fill.any fun f => decide (f.region = i) && f.watermark.any fun w => decide (w.toNat ≤ l.toNat)

/-- R6: the region decision, the checks in order. -/
def State.decideRegion (requester : Byte) (kind : Kind) (l : LineNo) (s : State) : Decision :=
  match s.lookup l with
  | none => .unmapped
  | some (i, r) =>
    if r.phase = .offline then .offline
    else if r.phase = .filling ∧ s.aboveWatermark i l then .notReady
    else if (r.rightsFor requester).allows kind then .admitted i r.mode
    else .denied i

/-! ### Acceptance -/

/-- The kind of a request (R6). -/
def RequestBody.kind : RequestBody → Kind
  | .read => .read
  | .write _ => .write
  | .merge _ _ => .merge

/-- R51, R179: a request is malformed. -/
def Request.malformed (q : Request) : Bool :=
  decide (15 < q.requester.toNat) || decide (63 < q.tag.toNat)
    || (match q.body with
        | .merge mask _ => decide (mask = 0)
        | .read => false
        | .write _ => false)

/-- R53: an entry that is not EXPIRED holds the request's requester number and tag. -/
def State.tagHeld (s : State) (q : Request) : Bool :=
  (List.finRange 64).any fun i =>
    (s.entry i).any fun e =>
      decide (e.phase ≠ .expired)
        && (match e.origin with
            | .requester t => decide (t.requester.val = q.requester.toNat) && decide (t.tag.val = q.tag.toNat)
            | .scan => false
            | .repair => false
            | .fill => false
            | .copy => false)

/-- R54: the entry of an admitted request. -/
def Request.entry (q : Request) (region : Fin 32) (mode : Mode) : Entry :=
  { origin := .requester
      { requester := Fin.ofNat 16 q.requester.toNat, tag := Fin.ofNat 64 q.tag.toNat, kind := q.body.kind,
        abandoned := false }
    line := q.line, physical := none, region := some region, mode := some mode
    data := match q.body with
      | .read => none
      | .write d => some d
      | .merge _ d => some d
    mask := match q.body with
      | .read => none
      | .write _ => none
      | .merge m _ => some m
    phase := .waitingLine, writing := decide (q.body.kind = .write), finding := none }

/-- R55: a request refused at acceptance is answered at once, with 64 bytes of zero in an LDATA. -/
def State.refuseRequest (q : Request) (status : Status) (s : State) : State :=
  s.respond q.requester q.tag q.body.kind status false zeroData

/-- ACCESS_REFUSED (R8). -/
def accessRefused (q : Request) (region : Option (Fin 32)) (why : Reason) : Notice :=
  { kind := .accessRefused, line := some q.line, region := region, requester := some (q.requester, q.tag),
    reason := some why }

/-- R8: a DENIED decision counts in the region's refused accesses. -/
def Region.countRefused (r : Region) : Region :=
  { r with stats := { r.stats with refused := bump r.stats.refused } }

/-- 3.4: the checks of acceptance in order, with what each outcome does. The request has left the queue; an admitted
one takes index `i`. -/
def State.decideRequest (q : Request) (i : Fin 64) (s : State) : State :=
  if q.malformed then s.refuseRequest q .malformed
  else if s.memory.link = .down then s.refuseRequest q .linkLost
  else if s.tagHeld q then s.refuseRequest q .tagConflict
  else match s.decideRegion q.requester q.body.kind q.line with
    | .unmapped => (s.raise (accessRefused q none .unmapped)).refuseRequest q .unmapped
    | .offline => s.refuseRequest q .offline
    | .notReady => s.refuseRequest q .notReady
    | .denied r =>
      ((s.modifyRegion r Region.countRefused).raise (accessRefused q (some r) .denied)).refuseRequest q .denied
    | .admitted r mode => s.create i (q.entry r mode)

/-- R50: the head leaves the request queue, which owes the partner one request credit. -/
def State.takeRequest (rest : List Request) (s : State) : State :=
  { s with port := { s.port with requests := rest, requestOwed := s.port.requestOwed + 1 } }

/-- R50: the head of the request queue is accepted or refused. No effect unless the queue has a head and the requester
pool a free entry. -/
def State.acceptance (s : State) : State :=
  match s.port.requests, s.slotFor .requester with
  | q :: rest, some i => ((s.takeRequest rest).decideRequest q i).handCredit
  | _, _ => s

/-! ### The passing of ownership -/

/-- Whether an entry stands at the head of its line order and is not yet owner (R45). -/
def State.passable (s : State) (i : Fin 64) : Bool :=
  (s.entry i).any fun e => decide (e.phase = .waitingLine) && decide ((s.lineOrder e.line).head? = some i)

/-- The entry to which ownership passes next; where several lines have one, in ascending order of index (R76). -/
def State.nextOwner (s : State) : Option (Fin 64) := (List.finRange 64).find? s.passable

/-- R45: the next entry of a line order becomes owner. No effect when no line order waits for it. -/
def State.ownershipPass (s : State) : State :=
  match s.nextOwner with
  | some i => s.becomeOwner i
  | none => s

/-! ### The ends of requester entries -/

/-- The counter a read's outcome increments (R4, R58). -/
def Region.countRead (f : Finding) (r : Region) : Region :=
  { r with stats :=
      match f with
      | .clean => r.stats
      | .corrected _ => { r.stats with corrected := bump r.stats.corrected }
      | .uncorrectable => { r.stats with uncorrectable := bump r.stats.uncorrectable }
      | .void => { r.stats with void := bump r.stats.void } }

/-- The event fields R58 gives a read's event. -/
def readNotice (k : EventKind) (e : Entry) (symbol : Option (Fin 72)) : Notice :=
  { kind := k, line := some e.line, physical := e.physical, region := e.region, requester := e.origin.name,
    origin := some .requester, symbol := symbol }

/-- R58: the event of a read's outcome. -/
def State.raiseRead (e : Entry) (f : Finding) (s : State) : State :=
  match f with
  | .clean => s
  | .corrected p =>
    if s.reportsCorrections (e.region.getD 0) then s.raise (readNotice .correctedRead e (some p)) else s
  | .uncorrectable => s.raise (readNotice .uncorrectable e none)
  | .void => s.raise (readNotice .voidRead e none)

/-- Whether an outcome offers the line of a read, or of an abandoned merge, to the repair queue (R58, R65). -/
def Finding.offers : Finding → Bool
  | .clean => false
  | .corrected _ => true
  | .uncorrectable => true
  | .void => false

/-- The status of a decoded read (R39). -/
def Finding.status : Finding → Status
  | .clean => .ok
  | .corrected _ => .ok
  | .uncorrectable => .uncorrectable
  | .void => .void

/-- The corrected indication (R39, R57). -/
def Finding.isCorrected : Finding → Bool
  | .clean => false
  | .corrected _ => true
  | .uncorrectable => false
  | .void => false

/-- A line offered to the repair queue if a condition holds. -/
def State.offerIf (b : Bool) (l : LineNo) (s : State) : State := if b then s.offerRepair l else s

/-- R4: the region counter of a read's outcome, unless the entry is abandoned. -/
def State.countRead (t : Ticket) (e : Entry) (f : Finding) (s : State) : State :=
  if t.abandoned then s else s.modifyRegion (e.region.getD 0) (Region.countRead f)

/-- R58, R65: a CORRECTING READ finishes on its classified SDATA. -/
def State.readDecoded (i : Fin 64) (e : Entry) (t : Ticket) (f : Finding) (d : Data) (s : State) : State :=
  ((((s.respondEntry t f.status f.isCorrected d).countRead t e f).offerIf f.offers e.line).raiseRead e f).release i

/-- R59, R36: an UNCHECKED READ finishes on its SDATA, the data as stored. -/
def State.readUnchecked (i : Fin 64) (t : Ticket) (d : Data) (s : State) : State :=
  (s.respondEntry t .ok false d).release i

/-- The entry of a merge that goes on to its write phase with the merged data on the base line `d` (R37, R61). -/
def Entry.merged (e : Entry) (f : Option Finding) (d : Data) : Entry :=
  { e with writing := true, finding := f, data := some (mergeData (e.mask.getD 0) (e.data.getD zeroData) d) }

/-- R61, R65: a CORRECTING MERGE's read phase ends on its classified SDATA. -/
def State.mergeDecoded (i : Fin 64) (e : Entry) (t : Ticket) (f : Finding) (d : Data) (s : State) : State :=
  if t.abandoned then (s.offerIf f.offers e.line).release i
  else match f with
    | .clean => s.wait i (e.merged (some f) d)
    | .corrected _ => s.wait i (e.merged (some f) d)
    | .void => (s.respondEntry t .void false zeroData).release i
    | .uncorrectable => ((s.respondEntry t .uncorrectable false zeroData).offerRepair e.line).release i

/-- R61, R65: an UNCHECKED MERGE's read phase ends on its SDATA. -/
def State.mergeUnchecked (i : Fin 64) (e : Entry) (t : Ticket) (d : Data) (s : State) : State :=
  if t.abandoned then s.release i else s.wait i (e.merged none d)

/-- R62: a merge whose read was CORRECTED reports its corrected write-back. -/
def State.reportMerge (e : Entry) (s : State) : State :=
  match e.finding with
  | some (.corrected p) => s.reportWriteBack e.line (e.region.getD 0) p .merge
  | some .clean => s
  | some .uncorrectable => s
  | some .void => s
  | none => s

/-- R60, R62: a WRITE or the write phase of a MERGE is acknowledged. The entry leaves the tracker before a copy that the
merge's write-back sends for starts, which may take its index (log entry 24, DESIGN CHOICE). -/
def State.writeDone (i : Fin 64) (e : Entry) (t : Ticket) (s : State) : State :=
  ((s.respondEntry t .ok false zeroData).reportMerge e).release i

/-! ### The resets at the tracker -/

/-- Whether a requester-link reset ends an entry: REQUESTER origin, not yet at the memory target (R64). -/
def Entry.endsAtReset (e : Entry) : Bool :=
  e.origin.isRequester && (decide (e.phase = .waitingLine) || decide (e.phase = .waitingIssue))

/-- Whether a requester-link reset marks an entry abandoned (R65). -/
def Entry.abandonsAtReset (e : Entry) : Bool :=
  e.origin.isRequester && (decide (e.phase = .awaitingData) || decide (e.phase = .awaitingDone))

/-- Whether an entry is a merge between its phases whose read was CORRECTED (R64). -/
def Entry.mergeCorrected (e : Entry) : Bool :=
  e.writing && (match e.finding with
    | some (.corrected _) => true
    | some .clean => false
    | some .uncorrectable => false
    | some .void => false
    | none => false)

/-- The abandoned mark is set (R65). -/
def Entry.abandon (e : Entry) : Entry :=
  match e.origin with
  | .requester t => { e with origin := .requester { t with abandoned := true } }
  | .scan => e
  | .repair => e
  | .fill => e
  | .copy => e

/-- R64, R65: what a requester-link reset does to one entry. -/
def State.resetEntry (s : State) (i : Fin 64) : State :=
  match s.entry i with
  | none => s
  | some e =>
    if e.endsAtReset then s.release i
    else if e.abandonsAtReset then s.setEntry i (some e.abandon)
    else s

/-- R64: the lines a requester-link reset offers to the repair queue, those of the merges it ends after a CORRECTED read,
in ascending order of the entries' indices. -/
def State.resetOffers (s : State) : List LineNo :=
  (List.finRange 64).filterMap fun i => (s.entry i).bind fun e =>
    if e.endsAtReset ∧ e.mergeCorrected then some e.line else none

/-- R98, R99: a line is offered to the repair queue, which is then served. -/
def State.offerAndServe (s : State) (l : LineNo) : State := (s.offerRepair l).serveRepairs

/-- R64, R65: a requester-link reset at the tracker: every entry is ended or marked at once, then the lines are offered one
after another, the repair queue being served at each offer (R99). -/
def State.resetRequesters (s : State) : State :=
  s.resetOffers.foldl State.offerAndServe ((List.finRange 64).foldl State.resetEntry s)

/-- R66: the answer of an entry ended by a memory-link loss: LINK_LOST unless abandoned or EXPIRED. -/
def State.loseEntry (s : State) (i : Fin 64) : State :=
  match s.entry i with
  | none => s
  | some e =>
    match e.origin with
    | .requester t => if e.phase = .expired then s else s.respondEntry t .linkLost false zeroData
    | .scan => s
    | .repair => s
    | .fill => s
    | .copy => s

/-- R66: a memory-link loss answers the requester entries and leaves the tracker empty. -/
def State.loseAll (s : State) : State :=
  { (List.finRange 64).foldl State.loseEntry s with
    tracker := { entries := Vector.replicate 64 none, order := [] } }

end Sys2Proof.Machine
end

