-- ==== Sys2Proof/Machine/MemoryPort.lean ====
section
/-! DEFINITION. The memory port at work (chapter The Memory Port): the issue arbiter, the rise and fall of the memory
link, the matching of completions, failures by origin, and the completion timeout. -/

namespace Sys2Proof.Machine

/-! ### Issue -/

/-- Credits in use: one for each issue record (R68, R75). -/
def MemoryPort.inUse (m : MemoryPort) : Nat := m.records.length

/-- R75: the link is UP and credits in use are below the announced credits. -/
def MemoryPort.creditFree (m : MemoryPort) : Bool :=
  decide (m.link = .up) && decide (m.inUse < m.announced.getD 0)

/-- Whether index `i` holds a COPY entry. -/
def State.isCopy (s : State) (i : Fin 64) : Bool := (s.entry i).any fun e => decide (e.origin = .copy)

/-- R76: the entry the arbiter chooses: the COPY entry if it waits, else the front of the waiting order. -/
def State.granted (s : State) : Option (Fin 64) :=
  match s.memory.waiting.find? s.isCopy with
  | some i => some i
  | none => s.memory.waiting.head?

/-- The packet of an entry's operation (R77). -/
def Entry.packet (i : Fin 64) (e : Entry) : MemoryPacket :=
  let l := e.physical.getD e.line
  if e.writing then .swrite i l e.storedLine else .sread i l

/-- The operation an entry waits to issue (R77). -/
def Entry.op (e : Entry) : MemoryOp := if e.writing then .write else .read

/-- R77: the operation of entry `e` is issued: packet, issue record with its deadline, and phase. -/
def State.issue (i : Fin 64) (e : Entry) (s : State) : State :=
  { s.setEntry i (some { e with phase := if e.writing then .awaitingDone else .awaitingData }) with
    memory :=
      { s.memory with
        waiting := s.memory.waiting.filter (· ≠ i)
        records := s.memory.records ++
          [{ tag := i, op := e.op, issued := s.now, deadline := s.now + BitVec.ofNat 32 s.memory.mtimeout }]
        sent := s.memory.sent ++ [e.packet i] } }

/-- R76, R77: one free credit is granted and the operation issued. No effect without a free credit or a waiting
entry. -/
def State.issueGrant (s : State) : State :=
  if s.memory.creditFree then
    match s.granted with
    | some i =>
      match s.entry i with
      | some e => s.issue i e
      | none => { s with memory := { s.memory with waiting := s.memory.waiting.filter (· ≠ i) } }
    | none => s
  else s

/-! ### The link goes UP -/

/-- R21: whether a memory-link up clips a region. -/
def Region.clipped (capacity : Nat) (r : Region) : Bool :=
  decide (r.phase ≠ .filling) && decide (capacity ≤ r.limit.toNat)

/-- R21: one region entry at a memory-link up. -/
def State.clipRegion (capacity : Nat) (s : State) (i : Fin 32) : State :=
  match s.region i with
  | none => s
  | some r =>
    if r.clipped capacity then
      (s.setRegion i (some { r with phase := .offline })).raise
        { kind := .regionClipped, region := some i, line := some r.limit }
    else s

/-- R21: every region beyond the capacity is set OFFLINE and reported, in ascending order of index (R155). -/
def State.clipRegions (capacity : Nat) (s : State) : State := (List.finRange 32).foldl (State.clipRegion capacity) s

/-- R71: the port takes the link UP. -/
def MemoryPort.rise (credits capacity : Nat) (m : MemoryPort) : MemoryPort :=
  { m with link := .up, announced := some credits, capacity := some capacity, records := [], helloStart := none }

/-- R70: a HELLO is valid. -/
def helloValid (credits : Byte) (capacity : BitVec 64) : Bool :=
  decide (1 ≤ credits.toNat) && decide (credits.toNat ≤ 64) && decide (1 ≤ capacity.toNat)
    && decide (capacity.toNat ≤ 4294967296)

/-- PROTOCOL_ERROR (R70, R74, R161). -/
def protocolError (why : Reason) : Notice := { kind := .protocolError, reason := some why }

/-- R71, R21, R136: everything a memory-link up does, its events in the order of R155. -/
def State.memoryUp (credits : Byte) (capacity : BitVec 64) (s : State) : State :=
  ((State.raise
      { kind := .memoryLinkUp, count := some credits.toNat,
        line := some (BitVec.ofNat 32 (capacity.toNat - 1)) }
      { s with memory := s.memory.rise credits.toNat capacity.toNat }).clipRegions capacity.toNat).clipSpares
    capacity.toNat

/-- R70: a HELLO from the memory target. -/
def State.memoryHello (credits : Byte) (capacity : BitVec 64) (s : State) : State :=
  match s.memory.link with
  | .up => s.raise (protocolError .memoryHelloWhileUp)
  | .down =>
    if helloValid credits capacity then s.memoryUp credits capacity
    else s.raise (protocolError .memoryHelloInvalid)

/-! ### The link goes DOWN -/

/-- R73: the port at a memory-link loss: DOWN, no credit in use, nothing waiting, and a HELLO at once. -/
def MemoryPort.fall (now : Time) (m : MemoryPort) : MemoryPort :=
  { m with link := .down, records := [], waiting := [], helloStart := some now, sent := m.sent ++ [.hello] }

/-- The tracker entry of the copy in progress: the COPY entry that has not expired. -/
def State.copyEntry (s : State) : Option Entry :=
  (List.finRange 64).findSome? fun i =>
    match s.entry i with
    | some e => if e.origin = .copy ∧ e.phase ≠ .expired then some e else none
    | none => none

/-- R147: the copy in progress fails at a memory-link loss. -/
def State.copyLost (s : State) : State :=
  match s.copyEntry with
  | none => s
  | some e =>
    if e.phase = .awaitingDone then s.copyFail true true .linkLostAfterWrite e.region
    else s.copyFail (decide (e.phase ≠ .waitingLine)) false .linkLostBeforeWrite e.region

/-- R72, R73: a memory-link loss: MEMORY_LINK_DOWN, then the fill's failure, then the copy's (R155); every tracker
entry is ended. No effect while the link is DOWN. -/
def State.memoryLoss (why : Reason) (s : State) : State :=
  match s.memory.link with
  | .down => s
  | .up =>
    let t := State.copyLost (State.fillLost (State.raise { kind := .memoryLinkDown, reason := some why }
      { s with memory := s.memory.fall s.now }))
    t.loseAll

/-- R69: the HELLO timer runs while the link is DOWN, and its period of 1,000 µs has passed. -/
def State.helloDue (s : State) : Bool := s.memory.helloStart.any fun t => decide (1000 ≤ elapsed s.now t)

/-- R69: at each expiry of the HELLO timer a HELLO is sent. No effect while the timer is stopped or runs. -/
def State.helloExpiry (s : State) : State :=
  if s.helloDue ∧ s.memory.link = .down then
    { s with memory :=
        { s.memory with helloStart := s.memory.helloStart.map (· + 1000), sent := s.memory.sent ++ [.hello] } }
  else s

/-- R74: a badly framed packet on the memory link is discarded, with PROTOCOL_ERROR while the link is UP. -/
def State.memoryBad (kind : Byte) (length : Nat) (s : State) : State :=
  if s.memory.link = .up ∧ memoryLength kind ≠ some length then
    s.raise (protocolError (if (memoryLength kind).isNone then .memoryUnknownKind else .memoryBadLength))
  else s

/-! ### Failures -/

/-- The status of a failed requester entry (R63). -/
def FillFailure.status : FillFailure → Status
  | .targetError => .targetError
  | .timeout => .timeout

/-- The reason of RETIRE_FAILED for a failed operation of a copy (R147). -/
def copyReason (writing : Bool) (why : FillFailure) : Reason :=
  match writing, why with
  | false, .targetError => .readError
  | false, .timeout => .readTimeout
  | true, .targetError => .writeError
  | true, .timeout => .writeTimeout

/-- R82: the failure of an entry's operation is taken by its origin. -/
def State.originFails (e : Entry) (why : FillFailure) (s : State) : State :=
  match e.origin with
  | .requester t => s.respondEntry t why.status false zeroData
  | .scan => s
  | .repair => s
  | .fill => s.fillWriteFailed e.line (e.physical.getD e.line) why
  | .copy => s.copyFail true e.writing (copyReason e.writing why) e.region

/-- TARGET_ERROR and MEMORY_TIMEOUT (R80, R84). -/
def failureNotice (k : EventKind) (e : Entry) : Notice :=
  { kind := k, line := some e.line, physical := e.physical, origin := some e.origin.event, region := e.region,
    requester := e.origin.name, reason := some (if e.writing then .write else .read) }

/-! ### Completions -/

/-- The issue record with a completion's tag (R79). -/
def MemoryPort.find (m : MemoryPort) (tag : Byte) : Option IssueRecord :=
  m.records.find? fun r => r.tag.val = tag.toNat

/-- R75: a credit is freed and its record discarded. -/
def State.freeCredit (i : Fin 64) (s : State) : State :=
  { s with memory := { s.memory with records := s.memory.records.filter fun r => r.tag ≠ i } }

/-- R81: an unmatched completion is discarded. -/
def State.unmatched (tag : Byte) (why : Reason) (s : State) : State :=
  s.raise { kind := .unmatchedCompletion, count := some tag.toNat, reason := some why }

/-- R85: a late completion: its credit and the entry's index are freed, its content discarded. -/
def State.lateCompletion (i : Fin 64) (e : Entry) (ok : Bool) (s : State) : State :=
  (((s.freeCredit i).raise
    { kind := .lateCompletion, count := some i.val, line := some e.line, physical := e.physical,
      origin := some e.origin.event, reason := some (if ok then .ok else .error) })).release i

/-- R80: a completion taken with status ERROR. -/
def State.targetError (i : Fin 64) (e : Entry) (s : State) : State :=
  (((s.freeCredit i).raise (failureNotice .targetError e)).originFails e .targetError).release i

/-- R145: the copy's source was classified: what the write phase sends to the new spare, and the void flag. -/
def State.copyRead (i : Fin 64) (e : Entry) (f : Finding) (d : Data) (s : State) : State :=
  match s.retirement.copy with
  | none => s
  | some job =>
    let void := decide (f = .uncorrectable) || decide (f = .void)
    State.wait i
      { e with writing := true, finding := some f, data := if void then none else some d,
               physical := s.retirement.spareLine job.spare }
      { s with retirement := { s.retirement with copy := some { job with void := void } } }

/-- R79: an SDATA with status OK carries its entry on, as the entry's origin and kind require. -/
def State.readTaken (i : Fin 64) (e : Entry) (stored : StoredLine) (s : State) : State :=
  match e.origin with
  | .requester t =>
    match t.kind, e.mode with
    | .read, some .unchecked => s.readUnchecked i t (dataOf stored)
    | .read, _ => s.readDecoded i e t (classify stored).1 (classify stored).2
    | .merge, some .unchecked => s.mergeUnchecked i e t (dataOf stored)
    | .merge, _ => s.mergeDecoded i e t (classify stored).1 (classify stored).2
    | .write, _ => s
  | .scan => s.patrolRead i e (classify stored).1 (classify stored).2
  | .repair => s.patrolRead i e (classify stored).1 (classify stored).2
  | .fill => s
  | .copy => s.copyRead i e (classify stored).1 (classify stored).2

/-- R79: an SDONE with status OK finishes its entry's write. -/
def State.writeTaken (i : Fin 64) (e : Entry) (s : State) : State :=
  match e.origin with
  | .requester t => s.writeDone i e t
  | .scan => s.patrolWritten i e
  | .repair => s.patrolWritten i e
  | .fill => (s.release i).fillAcknowledged e.line
  | .copy => (s.copySucceed e.region).release i

/-- R79, R80, R81, R85: a completion of kind `op` with a tag and a status is taken, late or unmatched; `finish` is what
an accepted one with status OK does. A completion received while the link is DOWN is discarded (R69). -/
def State.completion (op : MemoryOp) (tag status : Byte) (finish : Fin 64 → Entry → State → State)
    (s : State) : State :=
  match s.memory.link with
  | .down => s
  | .up =>
    match s.memory.find tag with
    | none => s.unmatched tag .noOperation
    | some r =>
      if r.op ≠ op then s.unmatched tag .wrongKind
      else match s.entry r.tag with
        | none => s.unmatched tag .noOperation
        | some e =>
          if e.phase = .expired then s.lateCompletion r.tag e (decide (status = 0))
          else if status = 0 then finish r.tag e (s.freeCredit r.tag)
          else s.targetError r.tag e

/-! ### The completion timeout -/

/-- R84: the time base has reached a record's deadline, the wrap taken into account. -/
def IssueRecord.due (r : IssueRecord) (now : Time) : Bool :=
  decide (elapsed r.deadline r.issued ≤ elapsed now r.issued)

/-- The entry whose record has this tag and has reached its deadline, while it awaits its completion (R84). -/
def State.expiring (s : State) (i : Fin 64) : Option Entry :=
  match s.memory.records.find? fun r => r.tag = i, s.entry i with
  | some r, some e => if r.due s.now ∧ (e.phase = .awaitingData ∨ e.phase = .awaitingDone) then some e else none
  | _, _ => none

/-- R84: an issue record expires: the entry becomes EXPIRED and leaves its line order, MEMORY_TIMEOUT is raised, and
the origin's failure rule applies. No effect before the deadline. -/
def State.timeoutExpiry (i : Fin 64) (s : State) : State :=
  match s.expiring i with
  | none => s
  | some e =>
    ((((s.setEntry i (some { e with phase := .expired })).leaveOrder i).raise
      (failureNotice .memoryTimeout e)).originFails e .timeout)

end Sys2Proof.Machine
end

