-- ==== Sys2Proof/Machine/Operands.lean ====
section
/-! DEFINITION. The arguments of management commands, read from the argument block of the MCMD (R183). A field whose
encoding names no value reads as none: the owning rule refuses it. Offsets are within the block. -/

namespace Sys2Proof.Machine

/-- Byte `i` of an argument block. -/
def argByte (b : ArgBlock) (i : Nat) : Byte := if h : i < 40 then b[i] else 0

/-- The number in `n` bytes from offset `i`, least significant first (R182). -/
def argNat (b : ArgBlock) (i n : Nat) : Nat := ofLe ((List.range n).map fun j => argByte b (i + j))

/-- The line number in bytes `i` to `i + 3`. -/
def argLine (b : ArgBlock) (i : Nat) : LineNo := BitVec.ofNat 32 (argNat b i 4)

/-- Byte 0: the command code. -/
def argCode (b : ArgBlock) : Nat := argNat b 0 1

/-- Byte 4: a region index, 0 to 31. -/
def argIndex (b : ArgBlock) : Option (Fin 32) :=
  if h : argNat b 4 1 < 32 then some ⟨argNat b 4 1, h⟩ else none

/-- A byte that is 0 or 1. -/
def argFlag (b : ArgBlock) (i : Nat) : Option Bool :=
  if argNat b i 1 = 0 then some false else if argNat b i 1 = 1 then some true else none

/-- Byte 5 of REGION_DEFINE: the mode. -/
def argMode (b : ArgBlock) : Option Mode :=
  if argNat b 5 1 = 0 then some .correcting else if argNat b 5 1 = 1 then some .unchecked else none

/-- Byte 7: the burst, 1 to 16. -/
def argBurst (b : ArgBlock) : Option Nat :=
  if 1 ≤ argNat b 7 1 ∧ argNat b 7 1 ≤ 16 then some (argNat b 7 1) else none

/-- Byte 8: the retire threshold, 0 to 15. -/
def argThreshold (b : ArgBlock) : Option Nat := if argNat b 8 1 ≤ 15 then some (argNat b 8 1) else none

/-- Byte 9: the report flags, corrections in bit 0 and passes in bit 1; another bit set makes a bad field. -/
def argReports (b : ArgBlock) : Option (Bool × Bool) :=
  if argNat b 9 1 < 4 then some ((argNat b 9 1).testBit 0, (argNat b 9 1).testBit 1) else none

/-- The two bits of requester `r` in bytes 20 to 23. -/
def argRightsBits (b : ArgBlock) (r : Nat) : Nat := argNat b 20 4 / 4 ^ r % 4

/-- The value of two rights bits; 3 names none and is caught before. -/
def rightsOf (n : Nat) : Rights := if n = 1 then .read else if n = 2 then .readWrite else .none

/-- Bytes 20 to 23: the rights of the sixteen requesters; a 3 makes a bad field. -/
def argRights (b : ArgBlock) : Option (Vector Rights 16) :=
  if (List.range 16).all fun r => argRightsBits b r != 3 then
    some (Vector.ofFn fun r : Fin 16 => rightsOf (argRightsBits b r.val))
  else none

/-- The region a REGION_DEFINE describes, if every field names a value of R1: OFFLINE, statistics zero, the cursor
at its base and the pass count 0 (R11). -/
def argRegion (b : ArgBlock) : Option Region :=
  match argMode b, argFlag b 6, argBurst b, argThreshold b, argReports b, argFlag b 10, argRights b with
  | some mode, some patrol, some burst, some threshold, some reports, some fixed, some rights =>
    some
      { phase := .offline, base := argLine b 12, limit := argLine b 16, rights := rights, mode := mode,
        patrol := patrol, burst := burst, threshold := threshold, reportCorrections := reports.1,
        reportPasses := reports.2, fixed := fixed,
        stats := { corrected := 0, uncorrectable := 0, void := 0, refused := 0 },
        cursor := argLine b 12, passes := 0 }
  | _, _, _, _, _, _, _ => none

/-- Bit `k` of REGION_MODIFY's selection, bytes 24 and 25. -/
def argSelects (b : ArgBlock) (k : Nat) : Bool := (argNat b 24 2).testBit k

/-- R12, check 4, first half: every named field holds a value of R1. The report flags share a byte, which is named
when either flag is (notes/assumptions/9). -/
def argNamedGood (b : ArgBlock) : Bool :=
  (!argSelects b 1 || (argRights b).isSome) && (!argSelects b 2 || (argMode b).isSome)
    && (!argSelects b 3 || (argFlag b 6).isSome) && (!argSelects b 4 || (argBurst b).isSome)
    && (!argSelects b 5 || (argThreshold b).isSome)
    && (!(argSelects b 6 || argSelects b 7) || (argReports b).isSome)
    && (!argSelects b 8 || (argFlag b 10).isSome)

/-- R13: a region with the named fields written into it. -/
def argModify (b : ArgBlock) (r : Region) : Region :=
  { r with
    base := if argSelects b 0 then argLine b 12 else r.base
    limit := if argSelects b 0 then argLine b 16 else r.limit
    rights := if argSelects b 1 then (argRights b).getD r.rights else r.rights
    mode := if argSelects b 2 then (argMode b).getD r.mode else r.mode
    patrol := if argSelects b 3 then (argFlag b 6).getD r.patrol else r.patrol
    burst := if argSelects b 4 then (argBurst b).getD r.burst else r.burst
    threshold := if argSelects b 5 then (argThreshold b).getD r.threshold else r.threshold
    reportCorrections :=
      if argSelects b 6 then ((argReports b).map (·.1)).getD r.reportCorrections else r.reportCorrections
    reportPasses := if argSelects b 7 then ((argReports b).map (·.2)).getD r.reportPasses else r.reportPasses
    fixed := if argSelects b 8 then (argFlag b 10).getD r.fixed else r.fixed }

end Sys2Proof.Machine
end

