-- ==== Sys2Proof/Machine/Regions.lean ====
section
/-! DEFINITION. The five region commands (1.3 to 1.7). A command's checks come first, in the order of its rule; the
first that fails refuses it with its reason and nothing is changed. -/

namespace Sys2Proof.Machine

/-- What the owning block answers to a command, with the state it leaves (R166). -/
structure Reply where
  outcome : CommandOutcome
  result : Result
  state : State
deriving DecidableEq, Repr

/-- A refused command changes nothing, and its results are zero (R166). -/
def refuse (why : RefusedReason) (s : State) : Reply := { outcome := .refused why, result := .empty, state := s }

/-- A command carried out whole. -/
def done (r : Result) (s : State) : Reply := { outcome := .done, result := r, state := s }

/-- A command that has begun an operation (R167). -/
def started (r : Result) (s : State) : Reply := { outcome := .started, result := r, state := s }

/-- Whether a line number is below the capacity; false while it is unknown. -/
def State.belowCapacity (s : State) (l : LineNo) : Bool := s.memory.capacity.any fun c => decide (l.toNat < c)

/-- REGION_DEFINE (R10, R11). -/
def regionDefine (b : ArgBlock) (s : State) : Reply :=
  match argIndex b with
  | none => refuse .badArgument s
  | some i =>
    if (s.region i).isSome then refuse .state s
    else if s.memory.capacity = none then refuse .linkDown s
    else match argRegion b with
      | none => refuse .badArgument s
      | some r =>
        if r.limit.toNat < r.base.toNat ∨ ¬ s.belowCapacity r.limit then refuse .badArgument s
        else if s.overlapsRegion none r.base.toNat r.limit.toNat ∨ s.overlapsSpares r.base.toNat r.limit.toNat then
          refuse .overlap s
        else if s.management.frozen ∧ r.fixed then refuse .frozen s
        else done .empty (s.setRegion i (some r))

/-- R13, R14: the patrol cursor goes to the base when the bounds are named, and when patrol goes from off to on. -/
def modifiedRegion (b : ArgBlock) (r : Region) : Region :=
  let n := argModify b r
  if argSelects b 0 ∨ (n.patrol ∧ ¬ r.patrol) then { n with cursor := n.base } else n

/-- R14: what a change of bounds does to the history table and the repair queue. -/
def State.boundsChanged (i : Fin 32) (old new : Region) (s : State) : State :=
  (s.forgetHistory fun e => decide (e.region = i) && !new.contains e.line).dropRepairs
    fun l => old.contains l && !new.contains l

/-- REGION_MODIFY (R12 to R15). -/
def regionModify (b : ArgBlock) (s : State) : Reply :=
  match argIndex b with
  | none => refuse .badArgument s
  | some i =>
    match s.region i with
    | none => refuse .state s
    | some r =>
      let n := modifiedRegion b r
      let bounds := argSelects b 0
      if (bounds ∨ argSelects b 2) ∧ r.phase ≠ .offline then refuse .state s
      else if ¬ argNamedGood b ∨ (bounds ∧ (n.limit.toNat < n.base.toNat ∨ ¬ s.belowCapacity n.limit)) then
        refuse .badArgument s
      else if bounds ∧ (s.overlapsRegion (some i) n.base.toNat n.limit.toNat
          ∨ s.overlapsSpares n.base.toNat n.limit.toNat) then refuse .overlap s
      else if s.management.frozen ∧ (r.fixed ∨ (argSelects b 8 ∧ n.fixed)) then refuse .frozen s
      else
        let t := s.setRegion i (some n)
        done .empty (if bounds then t.boundsChanged i r n else t)

/-- Byte 5 of REGION_STATE: the target (R183). -/
def argTarget (b : ArgBlock) : Option RegionPhase :=
  if argNat b 5 1 = 1 then some .online else if argNat b 5 1 = 2 then some .offline else none

/-- REGION_STATE (R16, R17). -/
def regionState (b : ArgBlock) (s : State) : Reply :=
  match argIndex b, argTarget b with
  | some i, some target =>
    match s.region i with
    | none => refuse .state s
    | some r =>
      if r.phase = .filling then refuse .state s
      else if target = .online ∧ ¬ s.belowCapacity r.limit then refuse .badArgument s
      else if s.management.frozen ∧ r.fixed then refuse .frozen s
      else done .empty (s.setRegion i (some { r with phase := target }))
  | _, _ => refuse .badArgument s

/-- R19: what the removal of a region does to the history table and the repair queue. -/
def State.regionRemoved (i : Fin 32) (r : Region) (s : State) : State :=
  ((s.forgetHistory fun e => e.region = i).dropRepairs r.contains).setRegion i none

/-- REGION_REMOVE (R18, R19). -/
def regionRemove (b : ArgBlock) (s : State) : Reply :=
  match argIndex b with
  | none => refuse .badArgument s
  | some i =>
    match s.region i with
    | none => refuse .state s
    | some r =>
      if r.phase ≠ .offline then refuse .state s
      else if s.refersTo i then refuse .busy s
      else if s.management.frozen ∧ r.fixed then refuse .frozen s
      else done .empty (s.regionRemoved i r)

/-- The four counters set to zero (R4, R20). -/
def Region.clearStats (r : Region) : Region :=
  { r with stats := { corrected := 0, uncorrectable := 0, void := 0, refused := 0 } }

/-- REGION_QUERY (R20). -/
def regionQuery (b : ArgBlock) (s : State) : Reply :=
  match argIndex b, argFlag b 5 with
  | some i, some clear =>
    done (.region (s.region i)) (if clear then s.modifyRegion i Region.clearStats else s)
  | _, _ => refuse .badArgument s

end Sys2Proof.Machine
end

