-- ==== Sys2Proof/Machine/Commands.lean ====
section
/-! DEFINITION. The management commands other than the region commands: patrol and fill, history, retirement, the
memory port's, the event unit's, and the management unit's own. -/

namespace Sys2Proof.Machine

/-! ### Patrol and fill -/

/-- PATROL_SET (R88): the slot timer restarts whether or not a value changes. -/
def patrolSet (b : ArgBlock) (s : State) : Reply :=
  let period := argNat b 12 4
  match argFlag b 4 with
  | none => refuse .badArgument s
  | some enable =>
    if period < 10 ∨ 100000 < period then refuse .badArgument s
    else if s.management.frozen then refuse .frozen s
    else done (.patrol enable period)
      { s with patrol := { s.patrol with scanEnabled := enable, slotPeriod := period, slotStart := s.now } }

/-- R108: the engine starts on a region. -/
def State.startFill (i : Fin 32) (r : Region) (s : State) : State :=
  (((s.setRegion i (some { r with phase := .filling })).setFill (some
    { phase := .issuing, region := i, cursor := some r.base, watermark := some r.base, outstanding := [],
      unwritten := [], failed := none })).fillIssue)

/-- FILL_START (R107, R108). -/
def fillStart (b : ArgBlock) (s : State) : Reply :=
  match argIndex b with
  | none => refuse .badArgument s
  | some i =>
    match s.region i with
    | none => refuse .state s
    | some r =>
      if r.phase ≠ .offline then refuse .state s
      else if s.refersTo i then refuse .busy s
      else if s.patrol.fill.isSome then refuse .busy s
      else if s.memory.link = .down then refuse .linkDown s
      else if ¬ s.belowCapacity r.limit then refuse .badArgument s
      else if s.management.frozen ∧ r.fixed then refuse .frozen s
      else started (.fill i (some r.base)) (s.startFill i r)

/-- FILL_STOP (R113): with no line outstanding the fill ends at the same event. -/
def fillStop (_b : ArgBlock) (s : State) : Reply :=
  match s.patrol.fill with
  | none => refuse .state s
  | some f =>
    if f.phase ≠ .issuing then refuse .state s
    else started (.fill f.region f.watermark) (s.fillAdvance { f with phase := .stopping })

/-! ### Error history -/

/-- The occupied slots at or above a slot, in ascending order (R127). -/
def State.slotsFrom (s : State) (start : Nat) : List (Nat × HistoryEntry) :=
  (List.finRange 128).filterMap fun i => if start ≤ i.val then (s.slot i).map (i.val, ·) else none

/-- R127: the slot after the last entry returned, or END. -/
def nextSlotOf (all returned : List (Nat × HistoryEntry)) : Option Nat :=
  if all.length ≤ returned.length then none else returned.getLast?.map (·.1 + 1)

/-- HISTORY_QUERY (R127). -/
def historyQuery (b : ArgBlock) (s : State) : Reply :=
  let start := argNat b 4 2
  if 127 < start then refuse .badArgument s
  else
    let all := s.slotsFrom start
    done (.history (s.slotsFrom 0).length (nextSlotOf all (all.take 8)) (all.take 8)) s

/-- HISTORY_CLEAR (R128). -/
def historyClear (b : ArgBlock) (s : State) : Reply :=
  let l := argLine b 12
  if argNat b 4 1 = 1 then
    match (s.historySlot l).bind s.slot with
    | none => refuse .notFound s
    | some e => if e.retire = .queued then refuse .busy s else done .empty (s.forgetHistory fun e => e.line = l)
  else if argNat b 4 1 = 2 then
    let kept := ((s.slotsFrom 0).filter fun x => x.2.retire = .queued).length
    done (.cleared ((s.slotsFrom 0).length - kept) kept) (s.forgetHistory fun e => e.retire ≠ .queued)
  else refuse .badArgument s

/-! ### Retirement -/

/-- SPARE_SET (R131, R132). -/
def spareSet (b : ArgBlock) (s : State) : Reply :=
  let base := argLine b 12
  let count := argNat b 16 2
  if count = 0 ∨ 256 < count then refuse .badArgument s
  else match s.memory.capacity with
    | none => refuse .linkDown s
    | some c =>
      if c < base.toNat + count then refuse .badArgument s
      else if s.retirement.map ≠ [] ∨ s.retirement.queue ≠ [] ∨ s.occupancy .copy ≠ 0 then refuse .busy s
      else if s.overlapsRegion none base.toNat (base.toNat + count - 1) then refuse .overlap s
      else if s.management.frozen then refuse .frozen s
      else done (.spareArea base count)
        { s with retirement :=
            { s.retirement with area := some { base := base, spares := List.replicate count .free }
                                unavailable := false } }

/-- SPARE_MARK (R134). -/
def spareMark (b : ArgBlock) (s : State) : Reply :=
  let i := argNat b 4 2
  match s.retirement.area with
  | none => refuse .state s
  | some a =>
    match a.spares[i]? with
    | none => refuse .badArgument s
    | some x => if x ≠ .free then refuse .state s else done .empty (s.setSpare i .defective)

/-- SPARE_QUERY (R135). -/
def spareQuery (_b : ArgBlock) (s : State) : Reply :=
  done (.spare
    { area := s.retirement.area.map fun a => (a.base, a.spares.length)
      unavailable := s.retirement.area.isSome && s.retirement.unavailable
      counts := s.retirement.counts }) s

/-- RETIRE_LINE from a sender with a command tag (R140). -/
def retireLine (requester tag : Byte) (b : ArgBlock) (s : State) : Reply :=
  let l := argLine b 12
  match s.retireCheck l with
  | .noSpareArea => refuse .state s
  | .beyondCapacity => refuse .badArgument s
  | .inSpareArea => refuse .badArgument s
  | .pending => refuse .busy s
  | .queueFull => refuse .busy s
  | .noneFree => refuse .noSpare s
  | .unavailable => refuse .noSpare s
  | .accepted i =>
    started (.retirement l i) (s.enqueueRetire l (.manual { manager := requester, tag := tag }) i)

/-- A retire-queue entry is removed (R141). -/
def State.cancelRetire (q : RetireEntry) (s : State) : State :=
  State.noticeEnded q.origin q.line
    (State.setSpare q.spare .free
      { s with retirement := { s.retirement with queue := s.retirement.queue.filter fun x => x.line ≠ q.line } })

/-- RETIRE_CANCEL (R141). -/
def retireCancel (b : ArgBlock) (s : State) : Reply :=
  let l := argLine b 12
  if s.retirement.area.isNone then refuse .state s
  else match s.retirement.queue.find? fun q => q.line = l with
    | some q => done (.retirement l q.spare) (s.cancelRetire q)
    | none => if s.retirement.copying l then refuse .busy s else refuse .notFound s

/-- R142: an ACTIVE map entry is installed without a copy. -/
def State.loadRetired (l : LineNo) (i : Nat) (s : State) : State :=
  (s.setMap (insertMap
    { line := l, spare := i, state := .active, pending := none, auto := false, void := false, time := some s.now }
    s.retirement.map)).setSpare i .inUse

/-- RETIRE_LOAD (R142). -/
def retireLoad (b : ArgBlock) (s : State) : Reply :=
  let i := argNat b 4 2
  let l := argLine b 12
  match s.retirement.area with
  | none => refuse .state s
  | some a =>
    if a.spares.length ≤ i ∨ ¬ s.belowCapacity l ∨ a.contains l then refuse .badArgument s
    else if (s.retirement.entry l).isSome ∨ s.retirement.queued l ∨ s.retirement.copying l then refuse .busy s
    else if a.spares[i]? ≠ some .free then refuse .state s
    else if s.retirement.unavailable then refuse .state s
    else done .empty (s.loadRetired l i)

/-- RETIRE_QUERY (R138). -/
def retireQuery (b : ArgBlock) (s : State) : Reply :=
  let start := argNat b 4 2
  if s.retirement.area.isNone then refuse .state s
  else if 255 < start then refuse .badArgument s
  else
    let from' := s.retirement.map.zipIdx.map (fun x => (x.2, x.1)) |>.drop start
    done (.retireMap s.retirement.map.length (if from'.length ≤ 8 then none else some (start + 8)) (from'.take 8)) s

/-! ### Memory port, event unit and management unit -/

/-- TIMEOUT_SET (R83): for operations issued afterwards. -/
def timeoutSet (b : ArgBlock) (s : State) : Reply :=
  let v := argNat b 12 4
  if v < 100 ∨ 1000000 < v then refuse .badArgument s
  else if s.management.frozen then refuse .frozen s
  else done (.timeout v) { s with memory := { s.memory with mtimeout := v } }

/-- EVENT_GRANT (R158): the deliveries it allows follow at the same event, each an EVENT_DELIVERY. -/
def eventGrant (b : ArgBlock) (s : State) : Reply :=
  let n := argNat b 4 1
  if n = 0 ∨ 32 < n then refuse .badArgument s
  else
    let held := min (s.events.credits + n) 32
    done (.credits held) { s with events := { s.events with credits := held } }

/-- R168, R160: the manager changes; the event credits go to 0 and MANAGER_CHANGED is raised. -/
def State.changeManager (m : Fin 16) (s : State) : State :=
  State.raise
    { kind := .managerChanged, requester := some (BitVec.ofNat 8 m.val, 0), count := some s.management.manager.val }
    { s with management := { s.management with manager := m }, events := { s.events with credits := 0 } }

/-- MANAGER_SET (R168). -/
def managerSet (b : ArgBlock) (s : State) : Reply :=
  let n := argNat b 4 1
  if h : n < 16 then
    if s.management.frozen then refuse .frozen s else done (.manager ⟨n, h⟩) (s.changeManager ⟨n, h⟩)
  else refuse .badArgument s

/-- FREEZE (R170). -/
def freeze (_b : ArgBlock) (s : State) : Reply :=
  done .empty { s with management := { s.management with frozen := true } }

/-- The number of EXPIRED entries of all pools (R172). -/
def State.expiredCount (s : State) : Nat :=
  (List.finRange 64).countP fun i => (s.entry i).any fun e => e.phase = .expired

/-- What DEVICE_QUERY reads (R172). -/
def State.device (s : State) : DeviceView :=
  { requesterLink := s.port.link, memoryLink := s.memory.link, capacity := s.memory.capacity,
    announced := s.memory.announced, inUse := s.memory.inUse, requesterPool := s.occupancy .requester,
    patrolPool := s.occupancy .patrol, copyPool := s.occupancy .copy, expired := s.expiredCount,
    frozen := s.management.frozen, manager := s.management.manager,
    spareDefined := s.retirement.area.isSome, counts := s.retirement.counts,
    retireQueue := s.retirement.queue.length, repairQueue := s.patrol.repairQueue.length,
    eventQueue := s.events.queue.length, time := s.now }

/-- DEVICE_QUERY (R172). -/
def deviceQuery (_b : ArgBlock) (s : State) : Reply := done (.device s.device) s

end Sys2Proof.Machine
end

