-- ==== Sys2Proof/Machine/Management.lean ====
section
/-! DEFINITION. The service of management commands (10.1): taking the head of the management queue, the two checks made
before any other, and the response. -/

namespace Sys2Proof.Machine

/-- R183: the command a code names, with the block that owns it; codes 0 and above 22 name none. -/
def commandOf (code : Nat) (c : Command) : Option (State → Reply) :=
  match code with
  | 1 => some (regionDefine c.block)
  | 2 => some (regionModify c.block)
  | 3 => some (regionState c.block)
  | 4 => some (regionRemove c.block)
  | 5 => some (regionQuery c.block)
  | 6 => some (patrolSet c.block)
  | 7 => some (fillStart c.block)
  | 8 => some (fillStop c.block)
  | 9 => some (historyQuery c.block)
  | 10 => some (historyClear c.block)
  | 11 => some (spareSet c.block)
  | 12 => some (spareMark c.block)
  | 13 => some (spareQuery c.block)
  | 14 => some (retireLine c.requester c.tag c.block)
  | 15 => some (retireCancel c.block)
  | 16 => some (retireLoad c.block)
  | 17 => some (retireQuery c.block)
  | 18 => some (timeoutSet c.block)
  | 19 => some (eventGrant c.block)
  | 20 => some (managerSet c.block)
  | 21 => some (freeze c.block)
  | 22 => some (deviceQuery c.block)
  | _ => none

/-- R164: the command leaves the management queue, which owes the partner one management credit. -/
def State.takeCommand (rest : List Command) (s : State) : State :=
  { s with port := { s.port with commands := rest, managementOwed := s.port.managementOwed + 1 } }

/-- R165: whether a command comes from the manager. -/
def State.fromManager (s : State) (c : Command) : Bool := decide (c.requester.toNat = s.management.manager.val)

/-- R165: the two checks, then the owning rule's. -/
def State.process (c : Command) (s : State) : Reply :=
  if s.fromManager c then
    match commandOf (argCode c.block) c with
    | some f => f s
    | none => refuse .unknownCommand s
  else
    refuse .notManager
      (s.raise { kind := .managementRefused, requester := some (c.requester, c.tag), reason := some .notManager })

/-- R166: the response is addressed to the sender and carries its tag and the code as received. -/
def Reply.send (c : Command) (r : Reply) : State :=
  (r.state.hand (.mresp c.requester c.tag (argByte c.block 0) r.outcome r.result)).handCredit

/-- R164: the head of the management queue is taken and processed whole. No effect on an empty queue. -/
def State.serveCommand (s : State) : State :=
  match s.port.commands with
  | c :: rest => ((s.takeCommand rest).process c).send c
  | [] => s

/-- The head of the management queue is served if its code meets a condition: a row of the table stands for the commands
of its own code. -/
def State.serveIf (p : Nat → Bool) (s : State) : State :=
  match s.port.commands with
  | c :: _ => if p (argCode c.block) then s.serveCommand else s
  | [] => s

end Sys2Proof.Machine
end

