-- ==== Sys2Proof/Machine/RequesterPort.lean ====
section
/-! DEFINITION. The requester port at work (chapter Requester Link and Packet Formats): the rise and fall of the link,
arrivals with their checks, and sending. -/

namespace Sys2Proof.Machine

/-- R175: the port takes the link UP and hands its own HELLO. -/
def State.requesterHello (s : State) : State :=
  match s.port.link with
  | .up => s
  | .down => State.hand .hello { s with port := { s.port with link := .up } }

/-- R181: the port at the fall of the link: DOWN, both queues, both owed counts and the transmit order empty. -/
def RequesterPort.fall (p : RequesterPort) : RequesterPort :=
  { p with link := .down, requests := [], commands := [], requestOwed := 0, managementOwed := 0, transmit := [] }

/-- R181, R64, R65, R159: a requester-link reset. No effect while the link is DOWN (R175). -/
def State.requesterFall (why : Reason) (s : State) : State :=
  match s.port.link with
  | .down => s
  | .up =>
    let t := State.resetRequesters { s with port := s.port.fall }
    State.raise { kind := .requesterLinkReset, reason := some why }
      { t with events := { t.events with credits := 0 } }

/-- R178: a fatal violation: PROTOCOL_ERROR, then the fall of the link. No effect while the link is DOWN (R175). -/
def State.violation (why : Reason) (s : State) : State :=
  match s.port.link with
  | .down => s
  | .up => (s.raise { kind := .protocolError, reason := some why }).requesterFall .protocolViolation

/-- R176, R177: a request arrives. With no request credit at the partner it is a fatal violation. -/
def State.requestArrives (q : Request) (s : State) : State :=
  match s.port.link with
  | .down => s
  | .up =>
    if s.port.requests.length + s.port.requestOwed < 40 then
      { s with port := { s.port with requests := s.port.requests ++ [q] } }
    else s.violation .requesterNoRequestCredit

/-- R176, R177: a management command arrives. -/
def State.commandArrives (c : Command) (s : State) : State :=
  match s.port.link with
  | .down => s
  | .up =>
    if s.port.commands.length + s.port.managementOwed < 8 then
      { s with port := { s.port with commands := s.port.commands ++ [c] } }
    else s.violation .requesterNoManagementCredit

/-- A packet of this kind and length arrives that is not well framed. While UP it is a fatal violation, the kind judged
first, then the length (R178). While DOWN a HELLO is taken whatever its length, since nothing beyond its kind is examined,
and any other kind is discarded (R175). -/
def State.requesterBad (kind : Byte) (length : Nat) (s : State) : State :=
  match s.port.link with
  | .down => if kind = 0x08 then s.requesterHello else s
  | .up =>
    if requesterLength kind = some length then s
    else s.violation (if (requesterLength kind).isNone then .requesterUnknownKind else .requesterBadLength)

/-- R180: a packet as it is sent, and the owed counts after it. The HELLO carries the grant of 40 and 8, not returns, so
the owed counts stay. -/
def RequesterPort.sendFront (p : RequesterPort) : RequesterPort :=
  match p.transmit with
  | [] => p
  | .hello :: rest =>
    { p with transmit := rest,
             sent := p.sent ++ [{ packet := .hello, requestCredits := 40, managementCredits := 8 }] }
  | x :: rest =>
    { p with transmit := rest, requestOwed := 0, managementOwed := 0,
             sent := p.sent ++
               [{ packet := x, requestCredits := p.requestOwed, managementCredits := p.managementOwed }] }

/-- R180: the port sends the packet at the front of the transmit order. No effect while the order is empty, or while the
link is DOWN, when the port sends nothing (R175). -/
def State.transmitPacket (s : State) : State :=
  if s.port.transmit = [] ∨ s.port.link = .down then s else State.handCredit { s with port := s.port.sendFront }

end Sys2Proof.Machine
end

