-- ==== Sys2Proof/Machine/Settle.lean ====
section
/-! DEFINITION. The steps the bridge takes by itself, and the clock. Where the manual says that something is taken "at
the event that makes the conditions hold" (R45, R50, R76, R99, R101, R109, R143, R156, R164), the table gives it a row
of its own: it is the next step, before the bridge takes anything that comes from outside or from a timer. `settle` takes
every such step that can be taken. -/

namespace Sys2Proof.Machine

/-- The steps that follow from the state alone. -/
inductive Inner where
  | eventDelivery
  | ownershipPass
  | repairService
  | fillIssue
  | copyStart
  | acceptance
  | issueGrant
  | command
deriving DecidableEq, Repr

/-- The conditions under which a step of the bridge's own is taken. -/
def Inner.enabled (s : State) : Inner → Bool
  | .eventDelivery => s.deliverable
  | .ownershipPass => s.nextOwner.isSome
  | .repairService => s.repairReady
  | .fillIssue => s.fillReady.isSome && !s.repairReady
  | .copyStart => s.copyReady
  | .acceptance => !s.port.requests.isEmpty && (s.slotFor .requester).isSome
  | .issueGrant => s.memory.creditFree && !s.memory.waiting.isEmpty
  | .command => !s.port.commands.isEmpty

/-- What a step of the bridge's own does. -/
def Inner.run (s : State) : Inner → State
  | .eventDelivery => s.eventDelivery
  | .ownershipPass => s.ownershipPass
  | .repairService => s.repairService
  | .fillIssue => s.fillIssue
  | .copyStart => s.copyStart
  | .acceptance => s.acceptance
  | .issueGrant => s.issueGrant
  | .command => s.serveCommand

/-- The order in which the bridge takes steps that could be taken together (log entry 6). A record is delivered before
anything else is done, so no later step can fill the queue or take the credits away (R156, R158); repairs go ahead of the
fill (R101); the arbiter grants once every entry that can wait has joined the waiting order (R76); and a command is served
only when all that an earlier one allowed has been done, so that an entry that a free credit awaits is issued before a
command can change MTIMEOUT (R76, R77). -/
def Inner.inOrder : List Inner :=
  [.eventDelivery, .ownershipPass, .repairService, .fillIssue, .copyStart, .acceptance, .issueGrant, .command]

/-- The steps that go before a step in that order. -/
def Inner.before (i : Inner) : List Inner := Inner.inOrder.takeWhile fun j => decide (j ≠ i)

/-- Whether a step takes a packet from one of the two ingress queues (R50, R164). -/
def Inner.takesPacket : Inner → Bool
  | .acceptance => true
  | .command => true
  | _ => false

/-- The next of some steps of the bridge's own, if one can be taken. -/
def State.nextOf (steps : List Inner) (s : State) : Option Inner := steps.find? (Inner.enabled s)

/-- The next step of the bridge's own, if one can be taken. -/
def State.nextInner (s : State) : Option Inner := s.nextOf Inner.inOrder

/-- At most `n` of some steps of the bridge's own. -/
def State.settleFor (steps : List Inner) : Nat → State → State
  | 0, s => s
  | n + 1, s =>
    match s.nextOf steps with
    | some i => State.settleFor steps n (i.run s)
    | none => s

/-- Every step of the bridge's own that can be taken; the event is then over. From one arrival there are far fewer than
1024: each admits a request, serves a command, delivers a record, or creates, passes or issues one of the 64 entries. -/
def State.settle (s : State) : State := (s.settleFor Inner.inOrder 1024).closeEvent

/-- What a fall of the requester link finds: every step of the bridge's own has been taken but those that take a packet from
an ingress queue. The packets that wait there are not served first: the fall discards them (R22, R178, R181). -/
def State.settleArrival (s : State) : State :=
  (s.settleFor (Inner.inOrder.filter fun i => !i.takesPacket) 1024).closeEvent

/-- What the row of a step of the bridge's own finds where a rule puts other steps before it: those that go before it in the
order have been taken. The event goes on. -/
def State.settleBefore (i : Inner) (s : State) : State := s.settleFor i.before 1024

/-- No step of the bridge's own can be taken. -/
def State.quiet (s : State) : Bool := s.nextInner.isNone

/-! ### The clock -/

/-- R151: one microsecond passes. -/
def State.tick (s : State) : State := { s with events := { s.events with time := s.events.time + 1 } }

/-- The tag of the first issue record that has reached its deadline, in order of issue (R84). -/
def State.firstExpiring (s : State) : Option (Fin 64) :=
  (s.memory.records.map (·.tag)).find? fun i => (s.expiring i).isSome

/-- What the bridge does with nothing waiting to be taken: a step of its own; else it sends the front of the transmit
order; else a timer that has run out expires; else a microsecond passes. -/
def State.idle (s : State) : State :=
  match s.nextInner with
  | some i => i.run s
  | none =>
    if s.port.link = .up ∧ s.port.transmit ≠ [] then s.closeEvent.transmitPacket
    else match s.firstExpiring with
      | some i => s.closeEvent.timeoutExpiry i
      | none =>
        if s.slotDue then s.closeEvent.slotExpiry
        else if s.helloDue ∧ s.memory.link = .down then s.closeEvent.helloExpiry
        else s.closeEvent.tick

end Sys2Proof.Machine
end

