-- ==== Sys2Proof/Machine/InnerRows.lean ====
section
/-! DEFINITION. The meanings of the rows that stand for steps of the bridge's own in the data path: each is taken once,
by itself. A row whose conditions do not hold has no effect: its event does not take place. Where a rule puts other steps
before a row's, they are taken first (`settleBefore`): deliveries before an acceptance, which may raise a record (R156), and
all that joins the waiting order at the event before a grant (R76). -/

namespace Sys2Proof.Machine

/-- ACCEPTANCE (R50). -/
def execAcceptance (s : State) : Host.Outcome State Fault Refusal := .next (s.settleBefore .acceptance).acceptance

/-- OWNERSHIP_PASS (R45). -/
def execOwnershipPass (s : State) : Host.Outcome State Fault Refusal := .next s.ownershipPass

/-- ISSUE_GRANT (R76, R77). -/
def execIssueGrant (s : State) : Host.Outcome State Fault Refusal := .next (s.settleBefore .issueGrant).issueGrant

/-- REPAIR_SERVICE (R99). -/
def execRepairService (s : State) : Host.Outcome State Fault Refusal := .next s.repairService

/-- FILL_ISSUE (R109). -/
def execFillIssue (s : State) : Host.Outcome State Fault Refusal := .next s.fillIssue

/-- COPY_START (R143). -/
def execCopyStart (s : State) : Host.Outcome State Fault Refusal := .next s.copyStart

/-- EVENT_DELIVERY (R156). -/
def execEventDelivery (s : State) : Host.Outcome State Fault Refusal := .next s.eventDelivery

end Sys2Proof.Machine
end

