-- ==== Sys2Proof/Machine/ManagementRows.lean ====
section
/-! DEFINITION. The meanings of the rows of the management unit: the head of the management queue is taken and processed
whole (R164 to R166), if it is a command of the row's own code; with another command at the head, or none, the row's event
does not take place. A command of the code from a requester other than the manager is refused here too (R165). What earlier
steps allow at their own events is done first, as the deliveries after an EVENT_GRANT (`settleBefore`; R76, R143, R156,
R158). -/

namespace Sys2Proof.Machine

/-- The head of the management queue is served, if its code meets a condition, once every step before it has been taken. -/
def State.serveRow (p : Nat → Bool) (s : State) : State := (s.settleBefore .command).serveIf p

/-- REGION_DEFINE, code 1 (R10, R11). -/
def execRegionDefine (s : State) : Host.Outcome State Fault Refusal := .next (s.serveRow (· == 1))

/-- REGION_MODIFY, code 2 (R12 to R15). -/
def execRegionModify (s : State) : Host.Outcome State Fault Refusal := .next (s.serveRow (· == 2))

/-- REGION_STATE, code 3 (R16, R17). -/
def execRegionState (s : State) : Host.Outcome State Fault Refusal := .next (s.serveRow (· == 3))

/-- REGION_REMOVE, code 4 (R18, R19). -/
def execRegionRemove (s : State) : Host.Outcome State Fault Refusal := .next (s.serveRow (· == 4))

/-- REGION_QUERY, code 5 (R20). -/
def execRegionQuery (s : State) : Host.Outcome State Fault Refusal := .next (s.serveRow (· == 5))

/-- PATROL_SET, code 6 (R88). -/
def execPatrolSet (s : State) : Host.Outcome State Fault Refusal := .next (s.serveRow (· == 6))

/-- FILL_START, code 7 (R107, R108). -/
def execFillStart (s : State) : Host.Outcome State Fault Refusal := .next (s.serveRow (· == 7))

/-- FILL_STOP, code 8 (R113). -/
def execFillStop (s : State) : Host.Outcome State Fault Refusal := .next (s.serveRow (· == 8))

/-- HISTORY_QUERY, code 9 (R127). -/
def execHistoryQuery (s : State) : Host.Outcome State Fault Refusal := .next (s.serveRow (· == 9))

/-- HISTORY_CLEAR, code 10 (R128). -/
def execHistoryClear (s : State) : Host.Outcome State Fault Refusal := .next (s.serveRow (· == 10))

/-- SPARE_SET, code 11 (R131, R132). -/
def execSpareSet (s : State) : Host.Outcome State Fault Refusal := .next (s.serveRow (· == 11))

/-- SPARE_MARK, code 12 (R134). -/
def execSpareMark (s : State) : Host.Outcome State Fault Refusal := .next (s.serveRow (· == 12))

/-- SPARE_QUERY, code 13 (R135). -/
def execSpareQuery (s : State) : Host.Outcome State Fault Refusal := .next (s.serveRow (· == 13))

/-- RETIRE_LINE, code 14 (R140). -/
def execRetireLine (s : State) : Host.Outcome State Fault Refusal := .next (s.serveRow (· == 14))

/-- RETIRE_CANCEL, code 15 (R141). -/
def execRetireCancel (s : State) : Host.Outcome State Fault Refusal := .next (s.serveRow (· == 15))

/-- RETIRE_LOAD, code 16 (R142). -/
def execRetireLoad (s : State) : Host.Outcome State Fault Refusal := .next (s.serveRow (· == 16))

/-- RETIRE_QUERY, code 17 (R138). -/
def execRetireQuery (s : State) : Host.Outcome State Fault Refusal := .next (s.serveRow (· == 17))

/-- TIMEOUT_SET, code 18 (R83). -/
def execTimeoutSet (s : State) : Host.Outcome State Fault Refusal := .next (s.serveRow (· == 18))

/-- EVENT_GRANT, code 19 (R158). -/
def execEventGrant (s : State) : Host.Outcome State Fault Refusal := .next (s.serveRow (· == 19))

/-- MANAGER_SET, code 20 (R168). -/
def execManagerSet (s : State) : Host.Outcome State Fault Refusal := .next (s.serveRow (· == 20))

/-- FREEZE, code 21 (R170). -/
def execFreeze (s : State) : Host.Outcome State Fault Refusal := .next (s.serveRow (· == 21))

/-- DEVICE_QUERY, code 22 (R172). -/
def execDeviceQuery (s : State) : Host.Outcome State Fault Refusal := .next (s.serveRow (· == 22))

/-- UNKNOWN_COMMAND: a command of code 0 or above 22 (R165). -/
def execUnknownCommand (s : State) : Host.Outcome State Fault Refusal := .next (s.serveRow fun k => k == 0 || 22 < k)

end Sys2Proof.Machine
end

