-- ==== Sys2Proof/Machine/MemoryRows.lean ====
section
/-! DEFINITION. The meanings of the rows of the memory side and of the timers. A row that comes from outside, or from
a timer, is taken once the bridge has taken every step of its own (`settle`). -/

namespace Sys2Proof.Machine

/-- MEMORY_HELLO (R70, R71, R21, R136). -/
def execMemoryHello (credits : Byte) (capacity : BitVec 64) (s : State) : Host.Outcome State Fault Refusal :=
  .next (s.settle.memoryHello credits capacity)

/-- MEMORY_RESET (R72, R73). -/
def execMemoryReset (s : State) : Host.Outcome State Fault Refusal := .next (s.settle.memoryLoss .targetReset)

/-- MEMORY_LOSS_OF_SIGNAL (R72, R73). -/
def execMemoryLossOfSignal (s : State) : Host.Outcome State Fault Refusal := .next (s.settle.memoryLoss .lossOfSignal)

/-- HELLO_TIMER_EXPIRY (R69). -/
def execHelloTimerExpiry (s : State) : Host.Outcome State Fault Refusal := .next s.settle.helloExpiry

/-- MEMORY_BAD_PACKET (R74). -/
def execMemoryBadPacket (kind : Byte) (length : Nat) (s : State) : Host.Outcome State Fault Refusal :=
  .next (s.settle.memoryBad kind length)

/-- SDATA (R79 to R81, R85). -/
def execSdata (tag status : Byte) (stored : StoredLine) (s : State) : Host.Outcome State Fault Refusal :=
  .next (s.settle.completion .read tag status fun i e t => t.readTaken i e stored)

/-- SDONE (R79 to R81, R85). -/
def execSdone (tag status : Byte) (s : State) : Host.Outcome State Fault Refusal :=
  .next (s.settle.completion .write tag status fun i e t => t.writeTaken i e)

/-- COMPLETION_TIMEOUT_EXPIRY (R84). -/
def execCompletionTimeoutExpiry (tag : Fin 64) (s : State) : Host.Outcome State Fault Refusal :=
  .next (s.settle.timeoutExpiry tag)

/-- SLOT_TIMER_EXPIRY (R89 to R91). -/
def execSlotTimerExpiry (s : State) : Host.Outcome State Fault Refusal := .next s.settle.slotExpiry

end Sys2Proof.Machine
end

