-- ==== Sys2Proof/Machine/RequesterRows.lean ====
section
/-! DEFINITION. The meanings of the rows of the requester side: cold reset, the link, arrivals and sending. A packet is
sent, and a packet that joins its queue arrives, once the bridge has taken every step of its own (`settle`): what arrived
before it has been accepted or served at its own arrival (R50, R164). A fall of the link is taken once the bridge has taken
every step but those that serve the two ingress queues (`settleArrival`), and so is a packet that is discarded. -/

namespace Sys2Proof.Machine

/-- R163: the manager number the straps give. -/
def strapNumber (p : Straps) : Fin 16 :=
  Fin.ofNat 16 ((if p.a then 1 else 0) + (if p.b then 2 else 0) + (if p.c then 4 else 0) + (if p.d then 8 else 0))

/-- COLD_RESET (R67 and the resets of every chapter, R163). -/
def execColdReset (straps : Straps) (s : State) : Host.Outcome State Fault Refusal :=
  .next { State.reset with management := { manager := strapNumber straps, frozen := false }, pending := s.pending }

/-- What a request finds as it arrives. If it has a credit, every step has been taken before; if not, it is a fatal
violation, and the packets that wait are not served first (R178). -/
def State.requestFinds (s : State) : State :=
  if s.port.link = .up ∧ s.port.requests.length + s.port.requestOwed < 40 then s.settle else s.settleArrival

/-- What a management command finds as it arrives, likewise (R164, R178). -/
def State.commandFinds (s : State) : State :=
  if s.port.link = .up ∧ s.port.commands.length + s.port.managementOwed < 8 then s.settle else s.settleArrival

/-- REQUESTER_HELLO (R175). -/
def execRequesterHello (s : State) : Host.Outcome State Fault Refusal := .next s.settleArrival.requesterHello

/-- REQUESTER_RESET (R176, R181). -/
def execRequesterReset (s : State) : Host.Outcome State Fault Refusal :=
  .next (s.settleArrival.requesterFall .partnerReset)

/-- REQUESTER_LOSS_OF_SIGNAL (R181). -/
def execRequesterLossOfSignal (s : State) : Host.Outcome State Fault Refusal :=
  .next (s.settleArrival.requesterFall .lossOfSignal)

/-- LREAD (R176, R177). -/
def execLread (requester tag : Byte) (line : LineNo) (s : State) : Host.Outcome State Fault Refusal :=
  .next (s.requestFinds.requestArrives { requester := requester, tag := tag, line := line, body := .read })

/-- LWRITE (R176, R177). -/
def execLwrite (requester tag : Byte) (line : LineNo) (data : Data) (s : State) : Host.Outcome State Fault Refusal :=
  .next (s.requestFinds.requestArrives { requester := requester, tag := tag, line := line, body := .write data })

/-- LMERGE (R176, R177). -/
def execLmerge (requester tag : Byte) (line : LineNo) (mask : Mask) (data : Data) (s : State) :
    Host.Outcome State Fault Refusal :=
  .next (s.requestFinds.requestArrives { requester := requester, tag := tag, line := line, body := .merge mask data })

/-- MCMD (R176, R177). -/
def execMcmd (requester tag : Byte) (block : ArgBlock) (s : State) : Host.Outcome State Fault Refusal :=
  .next (s.commandFinds.commandArrives { requester := requester, tag := tag, block := block })

/-- REQUESTER_BAD_PACKET (R175, R178). -/
def execRequesterBadPacket (kind : Byte) (length : Nat) (s : State) : Host.Outcome State Fault Refusal :=
  .next (s.settleArrival.requesterBad kind length)

/-- TRANSMIT_PACKET (R180). -/
def execTransmitPacket (s : State) : Host.Outcome State Fault Refusal := .next s.settle.transmitPacket

end Sys2Proof.Machine
end

