-- ==== Sys2Proof/Machine/Dispatch.lean ====
section
/-! DEFINITION. Every command's meaning: one arm for each constructor of Instr. -/

namespace Sys2Proof.Machine

/-- The effect of a command on everything but the queue of pending commands. -/
def exec (i : Instr) (s : State) : Host.Outcome State Fault Refusal :=
  match i with
  | .coldReset p => Sys2Proof.Machine.execColdReset p s
  | .requesterHello => Sys2Proof.Machine.execRequesterHello s
  | .requesterReset => Sys2Proof.Machine.execRequesterReset s
  | .requesterLossOfSignal => Sys2Proof.Machine.execRequesterLossOfSignal s
  | .lread r t l => Sys2Proof.Machine.execLread r t l s
  | .lwrite r t l d => Sys2Proof.Machine.execLwrite r t l d s
  | .lmerge r t l m d => Sys2Proof.Machine.execLmerge r t l m d s
  | .mcmd r t b => Sys2Proof.Machine.execMcmd r t b s
  | .requesterBadPacket k n => Sys2Proof.Machine.execRequesterBadPacket k n s
  | .acceptance => Sys2Proof.Machine.execAcceptance s
  | .ownershipPass => Sys2Proof.Machine.execOwnershipPass s
  | .issueGrant => Sys2Proof.Machine.execIssueGrant s
  | .transmitPacket => Sys2Proof.Machine.execTransmitPacket s
  | .memoryHello n c => Sys2Proof.Machine.execMemoryHello n c s
  | .memoryReset => Sys2Proof.Machine.execMemoryReset s
  | .memoryLossOfSignal => Sys2Proof.Machine.execMemoryLossOfSignal s
  | .helloTimerExpiry => Sys2Proof.Machine.execHelloTimerExpiry s
  | .memoryBadPacket k n => Sys2Proof.Machine.execMemoryBadPacket k n s
  | .sdata t x l => Sys2Proof.Machine.execSdata t x l s
  | .sdone t x => Sys2Proof.Machine.execSdone t x s
  | .completionTimeoutExpiry t => Sys2Proof.Machine.execCompletionTimeoutExpiry t s
  | .slotTimerExpiry => Sys2Proof.Machine.execSlotTimerExpiry s
  | .repairService => Sys2Proof.Machine.execRepairService s
  | .fillIssue => Sys2Proof.Machine.execFillIssue s
  | .copyStart => Sys2Proof.Machine.execCopyStart s
  | .eventDelivery => Sys2Proof.Machine.execEventDelivery s
  | .regionDefine => Sys2Proof.Machine.execRegionDefine s
  | .regionModify => Sys2Proof.Machine.execRegionModify s
  | .regionState => Sys2Proof.Machine.execRegionState s
  | .regionRemove => Sys2Proof.Machine.execRegionRemove s
  | .regionQuery => Sys2Proof.Machine.execRegionQuery s
  | .patrolSet => Sys2Proof.Machine.execPatrolSet s
  | .fillStart => Sys2Proof.Machine.execFillStart s
  | .fillStop => Sys2Proof.Machine.execFillStop s
  | .historyQuery => Sys2Proof.Machine.execHistoryQuery s
  | .historyClear => Sys2Proof.Machine.execHistoryClear s
  | .spareSet => Sys2Proof.Machine.execSpareSet s
  | .spareMark => Sys2Proof.Machine.execSpareMark s
  | .spareQuery => Sys2Proof.Machine.execSpareQuery s
  | .retireLine => Sys2Proof.Machine.execRetireLine s
  | .retireCancel => Sys2Proof.Machine.execRetireCancel s
  | .retireLoad => Sys2Proof.Machine.execRetireLoad s
  | .retireQuery => Sys2Proof.Machine.execRetireQuery s
  | .timeoutSet => Sys2Proof.Machine.execTimeoutSet s
  | .eventGrant => Sys2Proof.Machine.execEventGrant s
  | .managerSet => Sys2Proof.Machine.execManagerSet s
  | .freeze => Sys2Proof.Machine.execFreeze s
  | .deviceQuery => Sys2Proof.Machine.execDeviceQuery s
  | .unknownCommand => Sys2Proof.Machine.execUnknownCommand s

end Sys2Proof.Machine
end

