-- ==== Sys2Proof/Machine/Flags.lean ====
section
/-! DEFINITION. The codes by which statuses, outcomes, reasons, event kinds and origins travel in packets (R182, R184),
and the bits of the two flag fields: the corrected indication and the presence bits of an event record. -/

namespace Sys2Proof.Machine

/-- The bit that a Boolean is. -/
def bit (b : Bool) : Nat := if b then 1 else 0

/-- A number as one byte of a packet. -/
def oneByte (n : Nat) : Byte := BitVec.ofNat 8 n

/-- Byte 3 of LDATA and LDONE: 0 to 11 in the order of the table of R57 (R182). -/
def Status.code : Status → Nat
  | .ok => 0
  | .void => 1
  | .uncorrectable => 2
  | .unmapped => 3
  | .offline => 4
  | .notReady => 5
  | .denied => 6
  | .timeout => 7
  | .targetError => 8
  | .linkLost => 9
  | .tagConflict => 10
  | .malformed => 11

/-- Byte 3 of MRESP: the outcome (R182). -/
def CommandOutcome.code : CommandOutcome → Nat
  | .done => 0
  | .started => 1
  | .refused _ => 2

/-- The reason of a REFUSED response: 1 to 10 in the order of the table of R166 (R184). -/
def RefusedReason.code : RefusedReason → Nat
  | .badArgument => 1
  | .notFound => 2
  | .state => 3
  | .busy => 4
  | .overlap => 5
  | .frozen => 6
  | .notManager => 7
  | .noSpare => 8
  | .linkDown => 9
  | .unknownCommand => 10

/-- Byte 1 of the result block: the reason, 0 for DONE and STARTED (R184). -/
def CommandOutcome.reasonCode : CommandOutcome → Nat
  | .done => 0
  | .started => 0
  | .refused r => r.code

/-- Byte 2 of an event record: 1 to 29 in the order of the table of section 9.6 (R184). -/
def EventKind.code : EventKind → Nat
  | .correctedRead => 1
  | .repaired => 2
  | .uncorrectable => 3
  | .voidRead => 4
  | .lineVoided => 5
  | .accessRefused => 6
  | .memoryTimeout => 7
  | .lateCompletion => 8
  | .targetError => 9
  | .unmatchedCompletion => 10
  | .memoryLinkDown => 11
  | .memoryLinkUp => 12
  | .regionClipped => 13
  | .spareClipped => 14
  | .requesterLinkReset => 15
  | .protocolError => 16
  | .managementRefused => 17
  | .passDone => 18
  | .fillDone => 19
  | .fillStopped => 20
  | .fillFailed => 21
  | .historyEvict => 22
  | .retireQueued => 23
  | .retireDeferred => 24
  | .sparesExhausted => 25
  | .retireDone => 26
  | .retireFailed => 27
  | .managerChanged => 28
  | .eventsLost => 29

/-- Byte 21 of an event record: 1 to 42 in the order of R184. -/
def Reason.code : Reason → Nat
  | .denied => 1
  | .unmapped => 2
  | .read => 3
  | .write => 4
  | .ok => 5
  | .error => 6
  | .noOperation => 7
  | .wrongKind => 8
  | .lossOfSignal => 9
  | .targetReset => 10
  | .partnerReset => 11
  | .protocolViolation => 12
  | .notManager => 13
  | .partialFill => 14
  | .allWritten => 15
  | .targetError => 16
  | .timeout => 17
  | .linkLost => 18
  | .none => 19
  | .deferred => 20
  | .beyondCapacity => 21
  | .queueFull => 22
  | .noSpareArea => 23
  | .noneFree => 24
  | .unavailable => 25
  | .data => 26
  | .void => 27
  | .spareUnavailable => 28
  | .linkLostBeforeWrite => 29
  | .readError => 30
  | .readTimeout => 31
  | .writeError => 32
  | .writeTimeout => 33
  | .linkLostAfterWrite => 34
  | .memoryHelloInvalid => 35
  | .memoryHelloWhileUp => 36
  | .memoryUnknownKind => 37
  | .memoryBadLength => 38
  | .requesterUnknownKind => 39
  | .requesterBadLength => 40
  | .requesterNoRequestCredit => 41
  | .requesterNoManagementCredit => 42

/-- Byte 20 of an event record: the origin (R184). -/
def EventOrigin.code : EventOrigin → Nat
  | .requester => 1
  | .scan => 2
  | .repair => 3
  | .fill => 4
  | .copy => 5
  | .auto => 6
  | .manual => 7
  | .merge => 8

/-- The last origin of a history entry, in the origin codes of the event record (R184). -/
def WriteBackOrigin.code : WriteBackOrigin → Nat
  | .scan => 2
  | .repair => 3
  | .merge => 8

/-- The retire state of a history entry (R184). -/
def RetireState.code : RetireState → Nat
  | .none => 0
  | .queued => 1
  | .deferred => 2

/-- The state of a map entry (R184). -/
def MapState.code : MapState → Nat
  | .copying => 0
  | .active => 1

/-- The state of a region entry in REGION_QUERY's results; 0 is EMPTY (R184). -/
def RegionPhase.code : RegionPhase → Nat
  | .offline => 1
  | .filling => 2
  | .online => 3

/-- The mode of a region (R183, R184). -/
def Mode.code : Mode → Nat
  | .correcting => 0
  | .unchecked => 1

/-- The two rights bits of one requester (R183, R184). -/
def Rights.code : Rights → Nat
  | .none => 0
  | .read => 1
  | .readWrite => 2

/-- A link state (R184). -/
def LinkState.code : LinkState → Nat
  | .down => 0
  | .up => 1

/-- Byte 4 of the header: bit 0 is the corrected indication of LDATA (R182). -/
def correctedFlag (corrected : Bool) : Nat := bit corrected

/-- The report flags: corrections in bit 0, passes in bit 1 (R183, R184). -/
def reportFlags (corrections passes : Bool) : Nat := bit corrections + 2 * bit passes

/-- The flags of a map entry in RETIRE_QUERY's results: void, pending present, time present (R184). -/
def MapEntry.flags (m : MapEntry) : Nat := bit m.void + 2 * bit m.pending.isSome + 4 * bit m.time.isSome

/-- The presence bits of an event record (R184). -/
def Notice.presence (n : Notice) : Nat :=
  bit n.region.isSome + 2 * bit n.line.isSome + 4 * bit n.physical.isSome + 8 * bit n.requester.isSome
    + 16 * bit n.origin.isSome + 32 * bit n.reason.isSome + 64 * bit n.count.isSome + 128 * bit n.spare.isSome
    + 256 * bit n.symbol.isSome

end Sys2Proof.Machine
end

