-- ==== Sys2Proof/Machine/Format.lean ====
section
/-! DEFINITION. The bytes of the packets the bridge sends (R182), of the result block of an MRESP and of the record of
an MEVENT (R184). Multi-byte fields go least significant byte first; reserved and absent bytes are zero. A byte or bit to
which the manual gives no value and which it does not call reserved is sent as zero too: log entries 22 (headers) and 23
(result blocks), DESIGN CHOICE. -/

namespace Sys2Proof.Machine

/-- Exactly `n` bytes: the given ones, and zeros after them. -/
def padTo (n : Nat) (bs : List Byte) : List Byte := bs.take n ++ List.replicate (n - bs.length) 0

/-- The eight-byte header of a packet the bridge sends (R182). -/
def outHeader (kind requester tag status flags requestCredits managementCredits : Nat) : List Byte :=
  [oneByte kind, oneByte requester, oneByte tag, oneByte status, oneByte flags, oneByte requestCredits,
    oneByte managementCredits, 0]

/-- A field of an event record that may be absent; zero if so (R184). -/
def optionNat (x : Option Nat) : Nat := x.getD 0

/-- The 32 bytes of an event record (R184). -/
def EventRecord.bytes (r : EventRecord) : List Byte :=
  let n := r.notice
  leBytes 2 r.seq.toNat ++ [oneByte n.kind.code] ++ leBytes 2 n.presence
    ++ [oneByte (optionNat (n.region.map (·.val))), (n.requester.map (·.1)).getD 0, (n.requester.map (·.2)).getD 0]
    ++ leBytes 4 r.time.toNat ++ leBytes 4 (optionNat (n.line.map (·.toNat)))
    ++ leBytes 4 (optionNat (n.physical.map (·.toNat)))
    ++ [oneByte (optionNat (n.origin.map (·.code))), oneByte (optionNat (n.reason.map (·.code))),
        oneByte (optionNat (n.symbol.map (·.val))), 0]
    ++ leBytes 2 (optionNat n.count) ++ leBytes 2 (optionNat n.spare) ++ leBytes 4 0

/-! ### The result block -/

/-- The rights of the sixteen requesters, two bits each (R183). -/
def rightsNat (rights : Vector Rights 16) : Nat := rights.toList.foldr (fun r n => r.code + 4 * n) 0

/-- A region entry from byte 4 of the result block; zero for EMPTY (R184). Byte 11 of the block, between the fixed flag
and the base, is zero (log entry 23, DESIGN CHOICE). -/
def regionBytes : Option Region → List Byte
  | none => []
  | some r =>
    [oneByte r.phase.code, oneByte r.mode.code, oneByte (bit r.patrol), oneByte r.burst, oneByte r.threshold,
      oneByte (reportFlags r.reportCorrections r.reportPasses), oneByte (bit r.fixed), 0]
    ++ leBytes 4 r.base.toNat ++ leBytes 4 r.limit.toNat ++ leBytes 4 (rightsNat r.rights)
    ++ leBytes 4 r.stats.corrected.toNat ++ leBytes 4 r.stats.uncorrectable.toNat ++ leBytes 4 r.stats.void.toNat
    ++ leBytes 4 r.stats.refused.toNat ++ leBytes 4 r.cursor.toNat ++ leBytes 2 r.passes.toNat

/-- An entry of HISTORY_QUERY's results, with its slot (R184). -/
def historyBytes (x : Nat × HistoryEntry) : List Byte :=
  leBytes 2 x.1 ++ leBytes 4 x.2.line.toNat
    ++ [oneByte x.2.region.val, oneByte x.2.count, oneByte x.2.symbol.val, oneByte x.2.origin.code,
        oneByte x.2.retire.code, 0]
    ++ leBytes 4 x.2.updated.toNat

/-- An entry of RETIRE_QUERY's results, with its position (R184). A pending spare or a time that its flag says is absent is
zero (log entry 23, DESIGN CHOICE). -/
def mapBytes (x : Nat × MapEntry) : List Byte :=
  [oneByte x.1] ++ leBytes 4 x.2.line.toNat ++ leBytes 2 x.2.spare ++ leBytes 2 (optionNat x.2.pending)
    ++ [oneByte x.2.state.code, oneByte (if x.2.auto then EventOrigin.auto.code else EventOrigin.manual.code),
        oneByte x.2.flags]
    ++ leBytes 4 (optionNat (x.2.time.map (·.toNat)))

/-- The head of a walk's results: how many there are, the next place or END, and how many are returned (R184). Bytes 9
to 15 of the block are zero (log entry 23, DESIGN CHOICE). -/
def walkBytes (total : Nat) (next : Option Nat) (returned : Nat) : List Byte :=
  leBytes 2 total ++ leBytes 2 (next.getD 0xFFFF) ++ [oneByte returned] ++ List.replicate 7 0

/-- The numbers of spares in each state, two bytes each (R184). -/
def SpareCounts.bytes (n : SpareCounts) : List Byte :=
  leBytes 2 n.free ++ leBytes 2 n.reserved ++ leBytes 2 n.inUse ++ leBytes 2 n.defective

/-- DEVICE_QUERY's results from byte 4 (R184). Byte 35 of the block is zero, and so is C while it is unknown (log entry 23,
DESIGN CHOICE). -/
def DeviceView.bytes (v : DeviceView) : List Byte :=
  [oneByte v.memoryLink.code, oneByte (bit v.capacity.isSome), oneByte (optionNat v.announced), oneByte v.inUse]
    ++ leBytes 8 (optionNat v.capacity)
    ++ [oneByte v.requesterPool, oneByte v.patrolPool, oneByte v.copyPool, oneByte v.expired, oneByte (bit v.frozen),
        oneByte v.manager.val, oneByte (bit v.spareDefined), oneByte v.requesterLink.code]
    ++ v.counts.bytes ++ [oneByte v.retireQueue, oneByte v.repairQueue, oneByte v.eventQueue, 0]
    ++ leBytes 4 v.time.toNat

/-- The results from byte 4 of the result block (R184). The bytes between the fields, and those after the last, are zero:
R184 gives them no value (log entry 23, DESIGN CHOICE). A watermark BEYOND_LIMIT, which no run reports, is zero too (log
entry 16). -/
def Result.bytes : Result → List Byte
  | .empty => []
  | .region r => regionBytes r
  | .history total next es => walkBytes total next es.length ++ es.flatMap historyBytes
  | .retireMap total next es => walkBytes total next es.length ++ es.flatMap mapBytes
  | .spare v =>
    [oneByte (bit v.area.isSome), oneByte (bit v.unavailable), 0, 0]
      ++ leBytes 4 (optionNat (v.area.map (·.1.toNat))) ++ leBytes 2 (optionNat (v.area.map (·.2))) ++ v.counts.bytes
  | .device v => v.bytes
  | .timeout v => leBytes 4 v
  | .patrol enabled period => [oneByte (bit enabled), 0, 0, 0] ++ leBytes 4 period
  | .credits held => [oneByte held]
  | .manager n => [oneByte n.val]
  | .spareArea base count => leBytes 4 0 ++ leBytes 4 base.toNat ++ leBytes 2 count
  | .fill i line => [oneByte i.val, 0, 0, 0] ++ leBytes 4 (optionNat (line.map (·.toNat)))
  | .retirement l i => leBytes 4 0 ++ leBytes 4 l.toNat ++ leBytes 2 i
  | .cleared deleted kept => leBytes 2 deleted ++ leBytes 2 kept

/-- The 152 bytes of the result block of an MRESP (R184). -/
def resultBlock (code : Byte) (outcome : CommandOutcome) (result : Result) : List Byte :=
  padTo 152 ([code, oneByte outcome.reasonCode, 0, 0] ++ result.bytes)

/-! ### Whole packets -/

/-- The bytes of a packet the bridge sends on the requester link, with its credit fields (R180, R182). Byte 1 of HELLO
and CREDIT, byte 3 of HELLO, MEVENT and CREDIT, and bits 1 to 7 of the flags of every kind, with bit 0 of every kind but
LDATA, are zero: the manual gives them no value (log entry 22, DESIGN CHOICE). -/
def SentPacket.bytes (p : SentPacket) : List Byte :=
  let head (kind : Nat) (dest tag : Byte) (status flags : Nat) : List Byte :=
    outHeader kind dest.toNat tag.toNat status flags p.requestCredits p.managementCredits
  match p.packet with
  | .hello => head 0x08 0 0 0 0
  | .ldata dest tag status corrected data => head 0x11 dest tag status.code (correctedFlag corrected) ++ data.toList
  | .ldone dest tag status => head 0x12 dest tag status.code 0
  | .mresp dest tag code outcome result => head 0x14 dest tag outcome.code 0 ++ resultBlock code outcome result
  | .mevent dest record => head 0x15 dest 0 0 0 ++ record.bytes
  | .credit => head 0x16 0 0 0 0

/-- The fixed length of a packet the bridge sends on the requester link (R182). -/
def OutPacket.length : OutPacket → Nat
  | .hello => 8
  | .ldata _ _ _ _ _ => 72
  | .ldone _ _ _ => 8
  | .mresp _ _ _ _ _ => 160
  | .mevent _ _ => 40
  | .credit => 8

/-- The bytes of a packet the bridge sends on the memory link (R182); byte 3 and the flags are zero (log entry 22,
DESIGN CHOICE). -/
def MemoryPacket.bytes : MemoryPacket → List Byte
  | .hello => outHeader 0x08 0 0 0 0 0 0
  | .sread tag line => outHeader 0x21 0 tag.val 0 0 0 0 ++ leBytes 4 line.toNat ++ leBytes 4 0
  | .swrite tag line stored =>
    outHeader 0x22 0 tag.val 0 0 0 0 ++ leBytes 4 line.toNat ++ leBytes 4 0 ++ stored.toList

/-- The fixed length of a packet the bridge sends on the memory link (R182). -/
def MemoryPacket.length : MemoryPacket → Nat
  | .hello => 8
  | .sread _ _ => 16
  | .swrite _ _ _ => 88

end Sys2Proof.Machine
end

