-- ==== Sys2Proof/Safety.lean ====
section
/-! DEFINITION. What it means for a state of the bridge to be in order: one predicate for each block, the laws that
the manual says the bridge keeps. Each is meant to hold after reset and to be kept by every step. -/

namespace Sys2Proof.Machine

/-- A step that answers a next state and keeps `P` (every step answers one). -/
def KeptByStep (P : State → Prop) : Prop := ∀ s t : State, P s → step s = .next t → P t

/-- R154: the event queue holds at most 32 records, event credits never exceed 32, and the lost count, which saturates at
65,535, is above 0 only while the queue is full; the sequence numbers of the records in it run without a gap up to the next
one. -/
structure EventUnit.Sound (u : EventUnit) : Prop where
  queue : u.queue.length ≤ 32
  credits : u.credits ≤ 32
  lost : u.lost ≤ 65535
  full : 0 < u.lost → u.queue.length = 32
  seq : ∀ (k : Nat) (r : EventRecord), u.queue[k]? = some r → r.seq + BitVec.ofNat 16 (u.queue.length - k) = u.nextSeq

/-- R97: the repair queue holds up to 8 lines and no line twice. -/
structure State.RepairsSound (s : State) : Prop where
  length : s.patrol.repairQueue.length ≤ 8
  nodup : s.patrol.repairQueue.Nodup

/-- R174, R175, R177: neither ingress queue with its owed credits exceeds the partner's grant, and a port that is DOWN
holds nothing. -/
structure RequesterPort.Sound (p : RequesterPort) : Prop where
  requests : p.requests.length + p.requestOwed ≤ 40
  commands : p.commands.length + p.managementOwed ≤ 8
  down : p.link = .down →
    p.requests = [] ∧ p.commands = [] ∧ p.requestOwed = 0 ∧ p.managementOwed = 0 ∧ p.transmit = []

/-- R68, R73: credits in use never exceed the announced credits, of which there are at most 64, and are 0 while the link
is DOWN; while it is UP, C and the announced credits are known; MTIMEOUT stays in its range. -/
structure MemoryPort.Sound (m : MemoryPort) : Prop where
  credits : m.inUse ≤ m.announced.getD 0
  announced : m.announced.getD 0 ≤ 64
  down : m.link = .down → m.records = []
  up : m.link = .up → m.capacity.isSome ∧ m.announced.isSome
  timeout : 100 ≤ m.mtimeout ∧ m.mtimeout ≤ 1000000

/-- R1, R87: one region's bounds, burst, threshold and cursor are in their ranges. -/
structure Region.Sound (r : Region) : Prop where
  bounds : r.base.toNat ≤ r.limit.toNat
  burst : 1 ≤ r.burst ∧ r.burst ≤ 16
  threshold : r.threshold ≤ 15
  cursor : r.base.toNat ≤ r.cursor.toNat ∧ r.cursor.toNat ≤ r.limit.toNat

/-- R3: every non-EMPTY region is in order, no two overlap, and none overlaps the spare area. -/
structure State.RegionsSound (s : State) : Prop where
  each : ∀ i r, s.region i = some r → r.Sound
  apart : ∀ i j ri rj l, s.region i = some ri → s.region j = some rj →
    ri.contains l = true → rj.contains l = true → i = j
  spares : ∀ i r a l, s.region i = some r → s.retirement.area = some a → r.contains l = true → a.contains l = false

/-- R106: a region is FILLING exactly if it is the region of the active fill, no fill is active while the memory link is
DOWN, and a failed line is recorded exactly while the fill is FAILING. -/
structure State.FillSound (s : State) : Prop where
  region : ∀ f, s.patrol.fill = some f → ∃ r, s.region f.region = some r
  filling : ∀ i r, s.region i = some r → (r.phase = .filling ↔ ∃ f, s.patrol.fill = some f ∧ f.region = i)
  down : s.memory.link = .down → s.patrol.fill = none
  failed : ∀ f, s.patrol.fill = some f → (f.failed.isSome ↔ f.phase = .failing)

/-- R118: no line has two entries, each count is 1 to 15, and the line of every entry lies within the bounds of the
non-EMPTY region whose index the entry carries. -/
structure State.HistorySound (s : State) : Prop where
  unique : ∀ i j e f, s.slot i = some e → s.slot j = some f → e.line = f.line → i = j
  count : ∀ i e, s.slot i = some e → 1 ≤ e.count ∧ e.count ≤ 15
  inRegion : ∀ i e, s.slot i = some e → ∃ r, s.region e.region = some r ∧ r.contains e.line = true

/-- R137, R139: the retire queue holds at most 8 entries and never two for the same line, no line is both queued and
being copied, and the retirement map is in strictly ascending order of logical line. -/
structure Retirement.Sound (r : Retirement) : Prop where
  length : r.queue.length ≤ 8
  nodup : (r.queue.map (·.line)).Nodup
  copy : ∀ j, r.copy = some j → j.line ∉ r.queue.map (·.line)
  ascending : r.map.Pairwise fun a b => a.line.toNat < b.line.toNat

/-- R133: whether a map entry keeps its line on an IN_USE spare: it is ACTIVE, or COPYING for a re-retire. -/
def MapEntry.keepsSpare (m : MapEntry) : Bool := decide (m.state = .active) || m.pending.isSome

/-- The spares promised to the entries of the retire queue and to the copy in progress (R133). -/
def Retirement.promised (r : Retirement) : List Nat := r.queue.map (·.spare) ++ r.copy.toList.map (·.spare)

/-- R133, R137, R139: the spare area has 1 to 256 spares; a spare is IN_USE exactly if it is that of a map entry that keeps
its line there, of one alone, and RESERVED exactly if it is promised, once; the map holds at most 256 entries and no line of
the spare area; only the line being copied is COPYING, on the spare promised to the copy; and a copy in progress is a
tracker entry, for which a map entry is COPYING once it is owner. -/
structure State.RetirementSound (s : State) : Prop where
  queue : s.retirement.Sound
  area : ∀ a, s.retirement.area = some a → 1 ≤ a.spares.length ∧ a.spares.length ≤ 256
  noArea : s.retirement.area = none → s.retirement.queue = [] ∧ s.retirement.map = [] ∧ s.retirement.copy = none
  inUse : ∀ a i, s.retirement.area = some a →
    (a.spares[i]? = some .inUse ↔ ∃ m ∈ s.retirement.map, m.keepsSpare = true ∧ m.spare = i)
  mapSpares : (s.retirement.map.map (·.spare)).Nodup
  reserved : ∀ a i, s.retirement.area = some a → (a.spares[i]? = some .reserved ↔ i ∈ s.retirement.promised)
  promised : s.retirement.promised.Nodup
  length : s.retirement.map.length ≤ 256
  outside : ∀ a, s.retirement.area = some a →
    (∀ m ∈ s.retirement.map, a.contains m.line = false) ∧ (∀ q ∈ s.retirement.queue, a.contains q.line = false)
      ∧ ∀ j, s.retirement.copy = some j → a.contains j.line = false
  active : ∀ m ∈ s.retirement.map, m.state = .active → m.pending = none
  copying : ∀ m ∈ s.retirement.map, m.state = .copying → ∃ j, s.retirement.copy = some j ∧ m.line = j.line
    ∧ ((m.pending = none ∧ m.spare = j.spare) ∨ m.pending = some j.spare)
  held : ∀ j, s.retirement.copy = some j → ∃ i e, s.entry i = some e ∧ e.origin = .copy ∧ e.phase ≠ .expired
    ∧ e.line = j.line ∧ (e.phase = .waitingLine ↔ ∀ m ∈ s.retirement.map, m.state = .active)

/-- Whether an entry holds a memory credit: it awaits its completion or has expired (R43, R68). -/
def Phase.holdsCredit : Phase → Bool
  | .waitingLine => false
  | .waitingIssue => false
  | .awaitingData => true
  | .awaitingDone => true
  | .expired => true

/-- R42, R77: what an entry is agrees with the phase it is in. -/
structure Entry.Sound (e : Entry) : Prop where
  data : e.phase = .awaitingData → e.writing = false
  done : e.phase = .awaitingDone → e.writing = true
  write : ∀ t, e.origin = .requester t → t.kind = .write → e.writing = true
  fill : e.origin = .fill → e.writing = true

/-- R40, R44, R45, R68, R73, R76: the pools keep their ceilings; each entry that has not expired stands in one line order
once, and one that is past WAITING_LINE at its head: it is the one owner of its line; the waiting order holds exactly the
entries in WAITING_ISSUE, those of the present event last and in ascending order of index; an entry has an issue record,
one, exactly if it awaits its completion or has expired; while the memory link is DOWN the tracker is empty; and a copy
entry that has not expired is the copy in progress. -/
structure State.TrackerSound (s : State) : Prop where
  pools : ∀ p : Pool, s.occupancy p ≤ p.ceiling
  entry : ∀ i e, s.entry i = some e → e.Sound
  orderNodup : s.tracker.order.Nodup
  order : ∀ i, i ∈ s.tracker.order ↔ ∃ e, s.entry i = some e ∧ e.phase ≠ .expired
  owner : ∀ i e, s.entry i = some e → e.phase ≠ .waitingLine → e.phase ≠ .expired →
    (s.lineOrder e.line).head? = some i
  waitingNodup : s.memory.waiting.Nodup
  joined : ∃ old new, s.memory.waiting = old ++ new ∧ (∀ i ∈ old, i ∉ s.memory.joined)
    ∧ (∀ i ∈ new, i ∈ s.memory.joined) ∧ new.Pairwise (· < ·)
  waiting : ∀ i, i ∈ s.memory.waiting ↔ ∃ e, s.entry i = some e ∧ e.phase = .waitingIssue
  recordNodup : (s.memory.records.map (·.tag)).Nodup
  record : ∀ i, i ∈ s.memory.records.map (·.tag) ↔ ∃ e, s.entry i = some e ∧ e.phase.holdsCredit = true
  op : ∀ r e, r ∈ s.memory.records → s.entry r.tag = some e → r.op = e.op
  down : s.memory.link = .down → ∀ i, s.entry i = none
  copy : ∀ i e, s.entry i = some e → e.origin = .copy → e.phase ≠ .expired →
    ∃ job, s.retirement.copy = some job ∧ job.line = e.line
  fill : s.memory.link = .down → s.patrol.fill = none

/-! ### Words the statements share -/

/-- A command with this code, from the manager, stands at the head of the management queue, before `rest`. -/
structure State.AtHead (s : State) (code : Nat) (c : Command) (rest : List Command) : Prop where
  head : s.port.commands = c :: rest
  code : argCode c.block = code
  manager : s.fromManager c = true

/-- The response to command `c` is handed to the port, and a CREDIT if the transmit order is then empty (R166, R180). -/
def State.answer (c : Command) (outcome : CommandOutcome) (result : Result) (s : State) : State :=
  (s.hand (.mresp c.requester c.tag (argByte c.block 0) outcome result)).handCredit

/-- Command `c` is taken from the queue before `rest`, refused, and nothing else changes (R164, R166). -/
def State.answerRefused (c : Command) (rest : List Command) (why : RefusedReason) (s : State) : State :=
  (s.takeCommand rest).answer c (.refused why) .empty

/-- What a requester-link reset does to one tracker entry (R64, R65). -/
def afterReset (e : Option Entry) : Option Entry :=
  match e with
  | none => none
  | some x => if x.endsAtReset then none else if x.abandonsAtReset then some x.abandon else some x

/-- Whether a requester-link reset ends the entry at index `i` (R64). -/
def State.endsAtReset (s : State) (i : Fin 64) : Bool := (s.entry i).any Entry.endsAtReset

/-- `v` is `t` after a requester-link reset has ended and marked the requester entries (R64, R65). -/
structure EntriesReset (t v : State) : Prop where
  entries : ∀ i, v.entry i = afterReset (t.entry i)
  order : v.tracker.order = t.tracker.order.filter fun i => !t.endsAtReset i
  memory : v.memory = { t.memory with waiting := t.memory.waiting.filter fun i => !t.endsAtReset i }
  others : v.patrol = t.patrol ∧ v.regions = t.regions ∧ v.retirement = t.retirement

/-- `u` is `t` after a requester-link reset whose record of PROTOCOL_ERROR, if any, is in `before`: the entries are ended or
marked, then the lines of the ended merges are offered to the repair queue, each offer served (R64, R65, R99, R159, R181). -/
structure RequesterFell (t u : State) (before : EventUnit) (why : Reason) : Prop where
  port : u.port =
    { t.port with link := .down, requests := [], commands := [], requestOwed := 0, managementOwed := 0, transmit := [] }
  entries : ∃ v : State, EntriesReset t v ∧
    let w := t.resetOffers.foldl State.offerAndServe v
    u.tracker = w.tracker ∧ u.memory = w.memory ∧ u.patrol = w.patrol
  events : u.events = { before with credits := 0 }.push { kind := .requesterLinkReset, reason := some why }
  others : u.regions = t.regions ∧ u.history = t.history ∧ u.retirement = t.retirement ∧ u.management = t.management
    ∧ u.pending = t.pending

/-- The completion of kind `op` with this tag is taken for entry `e` at index `i` (R79): the link is UP, the issue record
with the tag is of the kind, and its entry has not expired. -/
structure State.Takes (t : State) (op : MemoryOp) (tag : Byte) (i : Fin 64) (e : Entry) : Prop where
  link : t.memory.link = .up
  record : ∃ r, t.memory.find tag = some r ∧ r.op = op ∧ r.tag = i
  entry : t.entry i = some e
  waits : e.phase ≠ .expired

/-- R53: an entry that is not EXPIRED holds the requester number and tag of the request. -/
def State.Holds (s : State) (q : Request) : Prop :=
  ∃ i e t, s.entry i = some e ∧ e.phase ≠ .expired ∧ e.origin = .requester t
    ∧ t.requester.val = q.requester.toNat ∧ t.tag.val = q.tag.toNat

/-- R51: a field of the request is outside its range, or it is a merge with an empty mask. -/
def Request.Bad (q : Request) : Prop :=
  15 < q.requester.toNat ∨ 63 < q.tag.toNat ∨ ∃ d, q.body = .merge 0 d

/-- The requester statuses in the order of the table of R57: their numbers in byte 3 of LDATA and LDONE are 0, 1, ... (R182). -/
def statusTable : List Status :=
  [.ok, .void, .uncorrectable, .unmapped, .offline, .notReady, .denied, .timeout, .targetError, .linkLost,
    .tagConflict, .malformed]

/-- The reasons of a REFUSED response in the order of the table of R166: their numbers are 1, 2, ... (R184). -/
def refusalTable : List RefusedReason :=
  [.badArgument, .notFound, .state, .busy, .overlap, .frozen, .notManager, .noSpare, .linkDown, .unknownCommand]

/-- The event kinds in the order of the table of section 9.6: their numbers are 1, 2, ... (R184). -/
def kindTable : List EventKind :=
  [.correctedRead, .repaired, .uncorrectable, .voidRead, .lineVoided, .accessRefused, .memoryTimeout,
    .lateCompletion, .targetError, .unmatchedCompletion, .memoryLinkDown, .memoryLinkUp, .regionClipped,
    .spareClipped, .requesterLinkReset, .protocolError, .managementRefused, .passDone, .fillDone, .fillStopped,
    .fillFailed, .historyEvict, .retireQueued, .retireDeferred, .sparesExhausted, .retireDone, .retireFailed,
    .managerChanged, .eventsLost]

/-- The origins of event records: their numbers are 1, 2, ... (R184). -/
def originTable : List EventOrigin :=
  [.requester, .scan, .repair, .fill, .copy, .auto, .manual, .merge]

/-- The reasons of event records in the order of R184: their numbers are 1, 2, .... -/
def reasonTable : List Reason :=
  [.denied, .unmapped, .read, .write, .ok, .error, .noOperation, .wrongKind, .lossOfSignal, .targetReset,
    .partnerReset, .protocolViolation, .notManager, .partialFill, .allWritten, .targetError, .timeout, .linkLost,
    .none, .deferred, .beyondCapacity, .queueFull, .noSpareArea, .noneFree, .unavailable, .data, .void,
    .spareUnavailable, .linkLostBeforeWrite, .readError, .readTimeout, .writeError, .writeTimeout,
    .linkLostAfterWrite, .memoryHelloInvalid, .memoryHelloWhileUp, .memoryUnknownKind, .memoryBadLength,
    .requesterUnknownKind, .requesterBadLength, .requesterNoRequestCredit, .requesterNoManagementCredit]

/-- The records of several notices, raised one after another (R155). -/
def EventUnit.pushAll (ns : List Notice) (u : EventUnit) : EventUnit := ns.foldl (fun v n => v.push n) u

end Sys2Proof.Machine
end

