-- ==== Sys2Proof/WellFormed.lean ====
section
/-! DEFINITION. Which terms of `Instr` stand for an event that can happen. Every field of a packet covers its
whole range on the wire and is judged by the bridge itself (R179), so the rows with packet operands are well formed
as they stand; only the two rows for badly framed packets need a check, that the packet is badly framed. -/

namespace Sys2Proof

/-- A command is well formed unless it is a 'bad packet' that is in fact well framed. -/
def Instr.WellFormed : Instr → Bool
  | .requesterBadPacket kind length => requesterLength kind != some length
  | .memoryBadPacket kind length => memoryLength kind != some length
  | .coldReset _ | .requesterHello | .requesterReset | .requesterLossOfSignal => true
  | .lread _ _ _ | .lwrite _ _ _ _ | .lmerge _ _ _ _ _ | .mcmd _ _ _ => true
  | .acceptance | .ownershipPass | .issueGrant | .transmitPacket => true
  | .memoryHello _ _ | .memoryReset | .memoryLossOfSignal | .helloTimerExpiry => true
  | .sdata _ _ _ | .sdone _ _ | .completionTimeoutExpiry _ | .slotTimerExpiry => true
  | .repairService | .fillIssue | .copyStart | .eventDelivery => true
  | .regionDefine | .regionModify | .regionState | .regionRemove | .regionQuery => true
  | .patrolSet | .fillStart | .fillStop | .historyQuery | .historyClear => true
  | .spareSet | .spareMark | .spareQuery | .retireLine | .retireCancel | .retireLoad => true
  | .retireQuery | .timeoutSet | .eventGrant | .managerSet | .freeze | .deviceQuery => true
  | .unknownCommand => true

end Sys2Proof
end

