-- ==== Sys2Proof/Certificates/Slice0/Obligations.lean ====
section
/-! DEFINITION. The statements about the bridge. The hypotheses are about the state a command finds: for what comes from
outside or from a timer `s.settle`, in which the bridge has taken every step of its own; for a fall of the requester link
`s.settleArrival`, in which the packets of the two ingress queues have not been served (log entry 1); for an acceptance, a
grant and a management command `before.settleBefore`, in which the steps that go before it have been taken (log entry 6). -/

open Sys2Proof Sys2Proof.Machine

/-! ### The machine -/

/-- A step takes the command at the front of the queue. -/
def Obligations.StepTakesTheFrontCommand : Prop :=
  ∀ (c : Instr) (rest : List Instr) (s : State), s.pending = c :: rest → step s = exec c { s with pending := rest }

/-- With no command waiting, the bridge takes a step of its own, or sends a packet, or lets a timer expire, or a
microsecond passes (the model's choice, log entry 3); a bridge that can take no step of its own is settled, the event
being over. `s.settle` and `s.settleArrival` are log entry 1. -/
def Obligations.IdleBridgeActsByItself : Prop :=
  (∀ s : State, s.pending = [] →
    (s.nextInner = some .ownershipPass → step s = exec .ownershipPass s)
    ∧ (s.nextInner = some .repairService → step s = exec .repairService s)
    ∧ (s.nextInner = some .fillIssue → step s = exec .fillIssue s)
    ∧ (s.nextInner = some .copyStart → step s = exec .copyStart s)
    ∧ (s.nextInner = some .acceptance → step s = exec .acceptance s)
    ∧ (s.nextInner = some .command → step s = .next s.serveCommand)
    ∧ (s.nextInner = some .issueGrant → step s = exec .issueGrant s)
    ∧ (s.nextInner = some .eventDelivery → step s = exec .eventDelivery s)
    ∧ (s.nextInner = none →
        (s.port.link = .up ∧ s.port.transmit ≠ [] → step s = exec .transmitPacket s)
        ∧ (¬(s.port.link = .up ∧ s.port.transmit ≠ []) →
          (∀ i, s.firstExpiring = some i → step s = exec (.completionTimeoutExpiry i) s)
          ∧ (s.firstExpiring = none →
            (s.slotDue = true → step s = exec .slotTimerExpiry s)
            ∧ (s.slotDue = false →
              (s.helloDue = true ∧ s.memory.link = .down → step s = exec .helloTimerExpiry s)
              ∧ (¬(s.helloDue = true ∧ s.memory.link = .down) →
                step s = .next
                  { s with
                    events := { s.events with time := s.events.time + 1 }
                    memory := { s.memory with joined := [] } }))))))
  ∧ (∀ s : State, s.quiet = true →
    s.settle = { s with memory := { s.memory with joined := [] } }
    ∧ s.settleArrival = { s with memory := { s.memory with joined := [] } })

/-- Cold reset: every block at the value its chapter gives, the manager number the sum of the straps. -/
def Obligations.ColdResetEmptiesEveryBlock : Prop :=
  ∀ (p : Straps) (s : State), ∃ t, exec (.coldReset p) s = .next t
    ∧ (t.port.link = .down ∧ t.port.requests = [] ∧ t.port.commands = [] ∧ t.port.requestOwed = 0
      ∧ t.port.managementOwed = 0 ∧ t.port.transmit = [])
    ∧ (∀ i, t.region i = none)
    ∧ (∀ i, t.entry i = none) ∧ t.tracker.order = []
    ∧ (t.memory.link = .down ∧ t.memory.capacity = none ∧ t.memory.announced = none ∧ t.memory.records = []
      ∧ t.memory.waiting = [] ∧ t.memory.mtimeout = 20000 ∧ t.memory.helloStart = some 0 ∧ t.memory.sent = [.hello])
    ∧ (t.patrol.scanEnabled = false ∧ t.patrol.slotPeriod = 1000 ∧ t.patrol.slotStart = 0 ∧ t.patrol.pointer = 31
      ∧ t.patrol.repairQueue = [] ∧ t.patrol.fill = none)
    ∧ (∀ i, t.slot i = none)
    ∧ (t.retirement.area = none ∧ t.retirement.unavailable = false ∧ t.retirement.queue = [] ∧ t.retirement.map = []
      ∧ t.retirement.copy = none)
    ∧ (t.events.time = 0 ∧ t.events.queue = [] ∧ t.events.credits = 0 ∧ t.events.lost = 0 ∧ t.events.nextSeq = 0)
    ∧ t.management.frozen = false
    ∧ t.management.manager.val
      = (if p.a then 1 else 0) + (if p.b then 2 else 0) + (if p.c then 4 else 0) + (if p.d then 8 else 0)
    ∧ t.pending = s.pending

/-! ### The requester link -/

/-- A HELLO takes the link UP and the port hands its own; while UP it is discarded. `s.settleArrival` is log entry 1. -/
def Obligations.RequesterHelloBringsTheLinkUp : Prop :=
  ∀ s : State,
    (s.settleArrival.port.link = .down → exec .requesterHello s = .next
      { s.settleArrival with port :=
          { s.settleArrival.port with link := .up, transmit := s.settleArrival.port.transmit ++ [.hello] } })
    ∧ (s.settleArrival.port.link = .up → exec .requesterHello s = .next s.settleArrival)

/-- A request or a command sent with a credit joins the end of its queue; all that arrived before it has been accepted or
served. `s.settle` is log entry 1. -/
def Obligations.PacketsWithACreditJoinTheirQueue : Prop :=
  ∀ s : State, s.port.link = .up →
    (s.port.requests.length + s.port.requestOwed < 40 → ∀ (r t : Byte) (l : LineNo),
      exec (.lread r t l) s = .next
        { s.settle with port :=
            { s.settle.port with requests := s.settle.port.requests ++
                [{ requester := r, tag := t, line := l, body := .read }] } }
      ∧ (∀ d : Data, exec (.lwrite r t l d) s = .next
        { s.settle with port :=
            { s.settle.port with requests := s.settle.port.requests ++
                [{ requester := r, tag := t, line := l, body := .write d }] } })
      ∧ (∀ (m : Mask) (d : Data), exec (.lmerge r t l m d) s = .next
        { s.settle with port :=
            { s.settle.port with requests := s.settle.port.requests ++
                [{ requester := r, tag := t, line := l, body := .merge m d }] } }))
    ∧ (s.port.commands.length + s.port.managementOwed < 8 → ∀ (r t : Byte) (b : ArgBlock),
      exec (.mcmd r t b) s = .next
        { s.settle with port :=
            { s.settle.port with commands := s.settle.port.commands ++ [{ requester := r, tag := t, block := b }] } })

/-- A RESET or a loss of signal while UP is one requester-link reset, with its reason; while the link is DOWN every arrival
but a HELLO, and a loss of signal, is discarded without an effect, and a HELLO of any length is taken as a HELLO. No packet
that waits in a queue is served before: the regions, the history and the management unit are as they were.
`s.settleArrival` is log entry 1. -/
def Obligations.RequesterLinkFallsAndThenTakesOnlyAHello : Prop :=
  (∀ s : State, s.settleArrival.port.link = .up →
    (∃ u, exec .requesterReset s = .next u ∧ RequesterFell s.settleArrival u s.settleArrival.events .partnerReset)
    ∧ (∃ u, exec .requesterLossOfSignal s = .next u
      ∧ RequesterFell s.settleArrival u s.settleArrival.events .lossOfSignal))
  ∧ (∀ s : State, s.settleArrival.port.link = .down →
    exec .requesterReset s = .next s.settleArrival
    ∧ exec .requesterLossOfSignal s = .next s.settleArrival
    ∧ (∀ (kind : Byte) (n : Nat), kind ≠ 0x08 → exec (.requesterBadPacket kind n) s = .next s.settleArrival)
    ∧ (∀ n : Nat, exec (.requesterBadPacket 0x08 n) s = exec .requesterHello s)
    ∧ (∀ (r t : Byte) (l : LineNo), exec (.lread r t l) s = .next s.settleArrival
      ∧ (∀ d : Data, exec (.lwrite r t l d) s = .next s.settleArrival)
      ∧ (∀ (m : Mask) (d : Data), exec (.lmerge r t l m d) s = .next s.settleArrival))
    ∧ (∀ (r t : Byte) (b : ArgBlock), exec (.mcmd r t b) s = .next s.settleArrival))
  ∧ (∀ s : State, s.settleArrival.regions = s.regions ∧ s.settleArrival.history = s.history
    ∧ s.settleArrival.management = s.management ∧ s.settleArrival.port.commands = s.port.commands
    ∧ s.settleArrival.port.requests = s.port.requests ∧ s.settleArrival.port.link = s.port.link
    ∧ s.settleArrival.port.requestOwed = s.port.requestOwed
    ∧ s.settleArrival.port.managementOwed = s.port.managementOwed)

/-- A badly framed packet, and a packet sent without a credit of its class, raise PROTOCOL_ERROR with their reason and take
the link DOWN with reason PROTOCOL_VIOLATION; the kind is judged before the length. The packets that wait are not served
first. `s.settleArrival` is log entry 1. -/
def Obligations.FatalViolationsTakeTheRequesterLinkDown : Prop :=
  ∀ s : State, s.settleArrival.port.link = .up →
    let fell (i : Instr) (why : Reason) : Prop :=
      ∃ u, exec i s = .next u
        ∧ RequesterFell s.settleArrival u (s.settleArrival.events.push { kind := .protocolError, reason := some why })
            .protocolViolation
    (∀ (kind : Byte) (n : Nat),
      (requesterLength kind = none → fell (.requesterBadPacket kind n) .requesterUnknownKind)
      ∧ (∀ m, requesterLength kind = some m → m ≠ n → fell (.requesterBadPacket kind n) .requesterBadLength))
    ∧ (40 ≤ s.port.requests.length + s.port.requestOwed → ∀ (r t : Byte) (l : LineNo),
      fell (.lread r t l) .requesterNoRequestCredit
      ∧ (∀ d : Data, fell (.lwrite r t l d) .requesterNoRequestCredit)
      ∧ (∀ (m : Mask) (d : Data), fell (.lmerge r t l m d) .requesterNoRequestCredit))
    ∧ (8 ≤ s.port.commands.length + s.port.managementOwed → ∀ (r t : Byte) (b : ArgBlock),
      fell (.mcmd r t b) .requesterNoManagementCredit)

/-- The front of the transmit order is sent with the credits owed, which are then 0; the HELLO carries the grant of 40
and 8 (that it leaves the owed counts is the model's reading, log entry 14). `s.settle` is log entry 1. -/
def Obligations.TransmitSendsTheFrontWithItsCredits : Prop :=
  ∀ s : State,
    (∀ x rest, s.settle.port.link = .up → s.settle.port.transmit = x :: rest → x ≠ .hello →
      exec .transmitPacket s = .next
        { s.settle with port :=
            { s.settle.port with
              transmit := rest, requestOwed := 0, managementOwed := 0
              sent := s.settle.port.sent ++
                [{ packet := x, requestCredits := s.settle.port.requestOwed
                   managementCredits := s.settle.port.managementOwed }] } })
    ∧ (∀ rest, s.settle.port.link = .up → s.settle.port.transmit = .hello :: rest →
      exec .transmitPacket s = .next
        (State.handCredit { s.settle with port :=
            { s.settle.port with
              transmit := rest
              sent := s.settle.port.sent ++ [{ packet := .hello, requestCredits := 40, managementCredits := 8 }] } }))
    ∧ (s.settle.port.transmit = [] ∨ s.settle.port.link = .down → exec .transmitPacket s = .next s.settle)

/-- Every packet the bridge sends has the fixed length of its kind, the kind's code in byte 0, the credits it returns in
bytes 5 and 6, and each field of R182 and R184 at its bytes, least significant byte first: destination, tag, status, data,
the fields of an event record with its presence bits, the fields of each result block, physical line and stored line. All
results are zero in a refusal, and the result fields of an EMPTY region are. The bytes to which the manual gives no value
(log entries 22 and 23) are left open. -/
def Obligations.SentPacketsHaveTheirFixedLayout : Prop :=
  let or0 (x : Option Nat) : Nat := x.getD 0
  (∀ p : SentPacket,
    let f (i n : Nat) : Nat := fieldAt p.bytes i n
    p.bytes.length = p.packet.length
    ∧ byteAt p.bytes 5 = BitVec.ofNat 8 p.requestCredits ∧ byteAt p.bytes 6 = BitVec.ofNat 8 p.managementCredits
    ∧ byteAt p.bytes 7 = 0
    ∧ byteAt p.bytes 0 = (match p.packet with
        | .hello => (0x08 : Byte)
        | .ldata _ _ _ _ _ => 0x11
        | .ldone _ _ _ => 0x12
        | .mresp _ _ _ _ _ => 0x14
        | .mevent _ _ => 0x15
        | .credit => 0x16)
    ∧ (∀ dest tag x c d, p.packet = .ldata dest tag x c d →
      byteAt p.bytes 1 = dest ∧ byteAt p.bytes 2 = tag ∧ statusTable[f 3 1]? = some x
      ∧ (byteAt p.bytes 4).getLsbD 0 = c ∧ ∀ j : Fin 64, byteAt p.bytes (8 + j.val) = d[j.val])
    ∧ (∀ dest tag x, p.packet = .ldone dest tag x →
      byteAt p.bytes 1 = dest ∧ byteAt p.bytes 2 = tag ∧ statusTable[f 3 1]? = some x)
    ∧ (∀ dest tag code o r, p.packet = .mresp dest tag code o r →
      byteAt p.bytes 1 = dest ∧ byteAt p.bytes 2 = tag
      ∧ f 3 1 = (match o with
        | .done => 0
        | .started => 1
        | .refused _ => 2)
      ∧ p.bytes.drop 8 = resultBlock code o r)
    ∧ (∀ dest e, p.packet = .mevent dest e →
      byteAt p.bytes 1 = dest ∧ byteAt p.bytes 2 = 0
      ∧ f 8 2 = e.seq.toNat ∧ f 10 1 ≠ 0 ∧ kindTable[f 10 1 - 1]? = some e.notice.kind
      ∧ (List.range 9).map (f 11 2).testBit =
          [e.notice.region.isSome, e.notice.line.isSome, e.notice.physical.isSome, e.notice.requester.isSome,
            e.notice.origin.isSome, e.notice.reason.isSome, e.notice.count.isSome, e.notice.spare.isSome,
            e.notice.symbol.isSome]
      ∧ f 11 2 < 512
      ∧ f 13 1 = or0 (e.notice.region.map (·.val)) ∧ f 14 1 = or0 (e.notice.requester.map (·.1.toNat))
      ∧ f 15 1 = or0 (e.notice.requester.map (·.2.toNat)) ∧ f 16 4 = e.time.toNat
      ∧ f 20 4 = or0 (e.notice.line.map (·.toNat)) ∧ f 24 4 = or0 (e.notice.physical.map (·.toNat))
      ∧ (e.notice.origin = none → f 28 1 = 0)
      ∧ (∀ o, e.notice.origin = some o → f 28 1 ≠ 0 ∧ originTable[f 28 1 - 1]? = some o)
      ∧ (e.notice.reason = none → f 29 1 = 0)
      ∧ (∀ w, e.notice.reason = some w → f 29 1 ≠ 0 ∧ reasonTable[f 29 1 - 1]? = some w)
      ∧ f 30 1 = or0 (e.notice.symbol.map (·.val)) ∧ f 31 1 = 0 ∧ f 32 2 = or0 e.notice.count % 65536
      ∧ f 34 2 = or0 e.notice.spare % 65536 ∧ f 36 4 = 0))
  ∧ (∀ (code : Byte) (o : CommandOutcome) (r : Result),
    let b := resultBlock code o r
    b.length = 152 ∧ byteAt b 0 = code ∧ byteAt b 2 = 0 ∧ byteAt b 3 = 0
    ∧ (o = .done ∨ o = .started → byteAt b 1 = 0)
    ∧ (∀ w, o = .refused w → fieldAt b 1 1 ≠ 0 ∧ refusalTable[fieldAt b 1 1 - 1]? = some w)
    ∧ (∀ w, o = .refused w → r = .empty → ∀ i, 4 ≤ i → byteAt b i = 0)
    ∧ (r = .region none → ∀ i, 4 ≤ i → i < 46 → i ≠ 11 → byteAt b i = 0))
  ∧ (∀ (code : Byte) (o : CommandOutcome),
    let f (r : Result) (i n : Nat) : Nat := fieldAt (resultBlock code o r) i n
    (∀ x : Region,
      let g := f (.region (some x))
      g 4 1 = (match x.phase with
        | .offline => 1
        | .filling => 2
        | .online => 3)
      ∧ g 5 1 = (if x.mode = .unchecked then 1 else 0) ∧ g 6 1 = (if x.patrol then 1 else 0) ∧ g 7 1 = x.burst % 256
      ∧ g 8 1 = x.threshold % 256
      ∧ g 9 1 = (if x.reportCorrections then 1 else 0) + (if x.reportPasses then 2 else 0)
      ∧ g 10 1 = (if x.fixed then 1 else 0) ∧ g 12 4 = x.base.toNat ∧ g 16 4 = x.limit.toNat
      ∧ (∀ k : Fin 16, g 20 4 / 4 ^ k.val % 4 = (match x.rights[k.val] with
        | .none => 0
        | .read => 1
        | .readWrite => 2))
      ∧ g 24 4 = x.stats.corrected.toNat ∧ g 28 4 = x.stats.uncorrectable.toNat ∧ g 32 4 = x.stats.void.toNat
      ∧ g 36 4 = x.stats.refused.toNat ∧ g 40 4 = x.cursor.toNat ∧ g 44 2 = x.passes.toNat)
    ∧ (∀ (total : Nat) (next : Option Nat) (es : List (Nat × HistoryEntry)), es.length ≤ 8 →
      let g := f (.history total next es)
      g 4 2 = total % 65536 ∧ g 6 2 = next.getD 0xFFFF % 65536 ∧ g 8 1 = es.length
      ∧ ∀ k slot h, es[k]? = some (slot, h) →
        let at' := 16 + 16 * k
        g at' 2 = slot % 65536 ∧ g (at' + 2) 4 = h.line.toNat ∧ g (at' + 6) 1 = h.region.val
        ∧ g (at' + 7) 1 = h.count % 256 ∧ g (at' + 8) 1 = h.symbol.val
        ∧ g (at' + 9) 1 = (match h.origin with
          | .scan => 2
          | .repair => 3
          | .merge => 8)
        ∧ g (at' + 10) 1 = (match h.retire with
          | .none => 0
          | .queued => 1
          | .deferred => 2)
        ∧ g (at' + 11) 1 = 0 ∧ g (at' + 12) 4 = h.updated.toNat)
    ∧ (∀ (total : Nat) (next : Option Nat) (es : List (Nat × MapEntry)), es.length ≤ 8 →
      let g := f (.retireMap total next es)
      g 4 2 = total % 65536 ∧ g 6 2 = next.getD 0xFFFF % 65536 ∧ g 8 1 = es.length
      ∧ ∀ k place m, es[k]? = some (place, m) →
        let at' := 16 + 16 * k
        g at' 1 = place % 256 ∧ g (at' + 1) 4 = m.line.toNat ∧ g (at' + 5) 2 = m.spare % 65536
        ∧ (∀ x, m.pending = some x → g (at' + 7) 2 = x % 65536)
        ∧ g (at' + 9) 1 = (if m.state = .active then 1 else 0)
        ∧ g (at' + 10) 1 = (if m.auto then 6 else 7)
        ∧ g (at' + 11) 1
          = (if m.void then 1 else 0) + (if m.pending.isSome then 2 else 0) + (if m.time.isSome then 4 else 0)
        ∧ ∀ x, m.time = some x → g (at' + 12) 4 = x.toNat)
    ∧ (∀ v : SpareView,
      let g := f (.spare v)
      g 4 1 = (if v.area.isSome then 1 else 0) ∧ g 5 1 = (if v.unavailable then 1 else 0)
      ∧ g 8 4 = or0 (v.area.map (·.1.toNat)) ∧ g 12 2 = or0 (v.area.map (·.2)) % 65536
      ∧ g 14 2 = v.counts.free % 65536 ∧ g 16 2 = v.counts.reserved % 65536 ∧ g 18 2 = v.counts.inUse % 65536
      ∧ g 20 2 = v.counts.defective % 65536)
    ∧ (∀ v : DeviceView,
      let g := f (.device v)
      g 4 1 = (if v.memoryLink = .up then 1 else 0) ∧ g 5 1 = (if v.capacity.isSome then 1 else 0)
      ∧ g 6 1 = or0 v.announced % 256 ∧ g 7 1 = v.inUse % 256 ∧ (∀ x, v.capacity = some x → g 8 8 = x % 2 ^ 64)
      ∧ g 16 1 = v.requesterPool % 256 ∧ g 17 1 = v.patrolPool % 256 ∧ g 18 1 = v.copyPool % 256
      ∧ g 19 1 = v.expired % 256 ∧ g 20 1 = (if v.frozen then 1 else 0) ∧ g 21 1 = v.manager.val
      ∧ g 22 1 = (if v.spareDefined then 1 else 0) ∧ g 23 1 = (if v.requesterLink = .up then 1 else 0)
      ∧ g 24 2 = v.counts.free % 65536 ∧ g 26 2 = v.counts.reserved % 65536 ∧ g 28 2 = v.counts.inUse % 65536
      ∧ g 30 2 = v.counts.defective % 65536 ∧ g 32 1 = v.retireQueue % 256 ∧ g 33 1 = v.repairQueue % 256
      ∧ g 34 1 = v.eventQueue % 256 ∧ g 36 4 = v.time.toNat)
    ∧ (∀ n, f (.timeout n) 4 4 = n % 2 ^ 32)
    ∧ (∀ e n, f (.patrol e n) 4 1 = (if e then 1 else 0) ∧ f (.patrol e n) 8 4 = n % 2 ^ 32)
    ∧ (∀ n, f (.credits n) 4 1 = n % 256)
    ∧ (∀ m : Fin 16, f (.manager m) 4 1 = m.val)
    ∧ (∀ (l : LineNo) n, f (.spareArea l n) 8 4 = l.toNat ∧ f (.spareArea l n) 12 2 = n % 65536)
    ∧ (∀ i l, f (.fill i l) 4 1 = i.val ∧ ∀ x, l = some x → f (.fill i l) 8 4 = x.toNat)
    ∧ (∀ (l : LineNo) n, f (.retirement l n) 8 4 = l.toNat ∧ f (.retirement l n) 12 2 = n % 65536)
    ∧ (∀ n k, f (.cleared n k) 4 2 = n % 65536 ∧ f (.cleared n k) 6 2 = k % 65536))
  ∧ (∀ p : MemoryPacket,
    p.bytes.length = p.length
    ∧ byteAt p.bytes 0 = (match p with
        | .hello => (0x08 : Byte)
        | .sread _ _ => 0x21
        | .swrite _ _ _ => 0x22)
    ∧ byteAt p.bytes 1 = 0 ∧ byteAt p.bytes 7 = 0
    ∧ (∀ tag l, p = .sread tag l →
      fieldAt p.bytes 2 1 = tag.val ∧ fieldAt p.bytes 8 4 = l.toNat ∧ fieldAt p.bytes 12 4 = 0)
    ∧ (∀ tag l x, p = .swrite tag l x →
      fieldAt p.bytes 2 1 = tag.val ∧ fieldAt p.bytes 8 4 = l.toNat ∧ fieldAt p.bytes 12 4 = 0
      ∧ ∀ j : Fin 72, byteAt p.bytes (16 + j.val) = x[j.val]))

/-- The bytes of every packet that arrives are read back as the packet they are, every field at every value, and every
packet is read as a command that can happen. -/
def Obligations.ArrivingPacketsAreReadBackAsSent : Prop :=
  (∀ (i : Instr) (p : List Byte), requesterBytes i = some p → requesterFrame p = i)
  ∧ (∀ (i : Instr) (p : List Byte), memoryBytes i = some p → memoryFrame p = i)
  ∧ (∀ p : List Byte, (requesterFrame p).WellFormed = true ∧ (memoryFrame p).WellFormed = true)

/-! ### Acceptance, ownership and issue -/

/-- The region decision takes the first check that applies, in the one region that contains the line wherever it stands in
the table; a line in no region is UNMAPPED. -/
def Obligations.RegionDecisionTakesTheFirstCheckThatApplies : Prop :=
  ∀ (s : State) (requester : Byte) (kind : Kind) (l : LineNo), s.RegionsSound →
    ((∀ i r, s.region i = some r → r.contains l = false) → s.decideRegion requester kind l = .unmapped)
    ∧ (∀ i r, s.region i = some r → r.contains l = true →
      (r.phase = .offline → s.decideRegion requester kind l = .offline)
      ∧ (r.phase = .filling →
        (∃ f w, s.patrol.fill = some f ∧ f.region = i ∧ f.watermark = some w ∧ w.toNat ≤ l.toNat) →
        s.decideRegion requester kind l = .notReady)
      ∧ (r.phase = .online ∨ (r.phase = .filling ∧
          ¬∃ f w, s.patrol.fill = some f ∧ f.region = i ∧ f.watermark = some w ∧ w.toNat ≤ l.toNat) →
        ∀ h : requester.toNat < 16,
          (r.rights[requester.toNat] = .readWrite ∨ (r.rights[requester.toNat] = .read ∧ kind = .read) →
            s.decideRegion requester kind l = .admitted i r.mode)
          ∧ (¬(r.rights[requester.toNat] = .readWrite ∨ (r.rights[requester.toNat] = .read ∧ kind = .read)) →
            s.decideRegion requester kind l = .denied i)))

/-- An admitted request becomes an entry at the lowest free index, at the end of its line's order, and owner at once if it
is alone there; its queue place is owed back as a credit. `before.settleBefore` is log entry 6. -/
def Obligations.AcceptanceAdmitsTheHeadAsAnEntry : Prop :=
  ∀ (before : State) (q : Request) (rest : List Request) (i : Fin 64) (g : Fin 32) (mode : Mode)
    (hr : q.requester.toNat < 16) (ht : q.tag.toNat < 64),
    let s := before.settleBefore .acceptance
    s.port.requests = q :: rest → s.slotFor .requester = some i → ¬q.Bad → s.memory.link = .up → ¬s.Holds q →
    s.decideRegion q.requester q.body.kind q.line = .admitted g mode →
    ∃ u, exec .acceptance before = .next u
      ∧ (s.entry i = none ∧ ∀ j, j < i → s.entry j ≠ none)
      ∧ u.entry i = some
          { origin := .requester
              { requester := ⟨q.requester.toNat, hr⟩, tag := ⟨q.tag.toNat, ht⟩, kind := q.body.kind, abandoned := false }
            line := q.line
            physical := if s.lineOrder q.line = [] then some (s.resolve q.line) else none
            region := some g, mode := some mode
            data := match q.body with
              | .read => none
              | .write d => some d
              | .merge _ d => some d
            mask := match q.body with
              | .read => none
              | .write _ => none
              | .merge m _ => some m
            phase := if s.lineOrder q.line = [] then .waitingIssue else .waitingLine
            writing := decide (q.body.kind = .write), finding := none }
      ∧ (∀ j, j ≠ i → u.entry j = s.entry j)
      ∧ u.tracker.order = s.tracker.order ++ [i]
      ∧ u.memory = (if s.lineOrder q.line = [] then s.memory.join i else s.memory)
      ∧ u.port =
          { s.port with
            requests := rest, requestOwed := s.port.requestOwed + 1
            transmit := if s.port.link = .up ∧ s.port.transmit = [] then [.credit] else s.port.transmit }
      ∧ u.regions = s.regions ∧ u.patrol = s.patrol ∧ u.history = s.history ∧ u.retirement = s.retirement
      ∧ u.events = s.events ∧ u.management = s.management ∧ u.pending = s.pending

/-- A refused request is answered at once with the status of the first check that applies, and leaves its queue; UNMAPPED
and DENIED raise ACCESS_REFUSED, and DENIED counts in its region. The records raised before have been delivered.
`before.settleBefore` is log entry 6. -/
def Obligations.AcceptanceAnswersARefusedHead : Prop :=
  ∀ (before : State) (q : Request) (rest : List Request) (i : Fin 64),
    let s := before.settleBefore .acceptance
    s.port.requests = q :: rest → s.slotFor .requester = some i →
    let answered (x : Status) (u : State) : Host.Outcome State Fault Refusal :=
      .next (u.respond q.requester q.tag q.body.kind x false zeroData).handCredit
    let u := s.takeRequest rest
    let decision := s.decideRegion q.requester q.body.kind q.line
    (q.Bad → exec .acceptance before = answered .malformed u)
    ∧ (¬q.Bad → s.memory.link = .down → exec .acceptance before = answered .linkLost u)
    ∧ (¬q.Bad → s.memory.link = .up →
      (s.Holds q → exec .acceptance before = answered .tagConflict u)
      ∧ (¬s.Holds q →
        (decision = .unmapped → exec .acceptance before = answered .unmapped
          (u.raise { kind := .accessRefused, line := some q.line, requester := some (q.requester, q.tag)
                     reason := some .unmapped }))
        ∧ (decision = .offline → exec .acceptance before = answered .offline u)
        ∧ (decision = .notReady → exec .acceptance before = answered .notReady u)
        ∧ (∀ g r, decision = .denied g → s.region g = some r → exec .acceptance before = answered .denied
          ((u.setRegion g (some
              { r with stats :=
                  { r.stats with refused :=
                      if r.stats.refused.toNat = 4294967295 then r.stats.refused else r.stats.refused + 1 } })).raise
            { kind := .accessRefused, line := some q.line, region := some g, requester := some (q.requester, q.tag)
              reason := some .denied }))))

/-- The entry at the head of its line order that waits for its line becomes owner: it resolves its physical line, through
an ACTIVE map entry to its spare and else to the line itself, and joins the waiting order: behind the entries of earlier
events, and in ascending order of index among those that join it at the same event. -/
def Obligations.OwnershipPassesToTheHeadOfALineOrder : Prop :=
  (∀ (s : State) (i : Fin 64) (e : Entry), s.entry i = some e → e.phase = .waitingLine →
    (s.lineOrder e.line).head? = some i → (∀ j, j < i → s.passable j = false) → e.origin ≠ .copy →
    exec .ownershipPass s = .next
      { s with
        tracker :=
          { s.tracker with entries :=
              s.tracker.entries.set i.val (some { e with physical := some (s.resolve e.line), phase := .waitingIssue }) }
        memory := s.memory.join i })
  ∧ (∀ (s : State) (a : SpareArea) (m : MapEntry) (l : LineNo), s.retirement.area = some a →
    s.retirement.entry l = some m → m.state = .active → s.resolve l = a.base + BitVec.ofNat 32 m.spare)
  ∧ (∀ (s : State) (l : LineNo), s.retirement.entry l = none → s.resolve l = l)
  ∧ (∀ (m : MemoryPort) (i : Fin 64) (old new : List (Fin 64)), m.waiting = old ++ new →
    (∀ j ∈ old, j ∉ m.joined) → (∀ j ∈ new, j ∈ m.joined) → new.Pairwise (· < ·) → i ∉ new →
    m.join i =
      { m with
        waiting := old ++ new.filter (fun j => decide (j < i)) ++ [i] ++ new.filter (fun j => decide (i < j))
        joined := m.joined ++ [i] })

/-- A copy that becomes owner has the map prepared: a COPYING entry for a first retirement, read from the line itself; the
ACTIVE entry set COPYING with its pending spare for a re-retire, read from its present spare. -/
def Obligations.CopyOwnershipPreparesTheMap : Prop :=
  ∀ (s : State) (i : Fin 64) (e : Entry) (job : CopyJob), s.entry i = some e → e.phase = .waitingLine →
    (s.lineOrder e.line).head? = some i → (∀ j, j < i → s.passable j = false) → e.origin = .copy →
    s.retirement.copy = some job → job.line = e.line →
    let owner (source : LineNo) (ms : List MapEntry) : Host.Outcome State Fault Refusal := .next
      { s with
        tracker :=
          { s.tracker with entries :=
              s.tracker.entries.set i.val (some { e with physical := some source, phase := .waitingIssue }) }
        memory := s.memory.join i
        retirement := { s.retirement with map := ms } }
    (s.retirement.entry e.line = none → exec .ownershipPass s = owner e.line
      (insertMap
        { line := e.line, spare := job.spare, state := .copying, pending := none, auto := decide (job.origin = .auto)
          void := false, time := none } s.retirement.map))
    ∧ (∀ a m, s.retirement.area = some a → s.retirement.entry e.line = some m → m.state = .active →
      exec .ownershipPass s = owner (a.base + BitVec.ofNat 32 m.spare)
        (s.retirement.map.map fun x =>
          if x.line = e.line then { x with state := .copying, pending := some job.spare } else x))

/-- A free credit goes to the copy if it waits, and else to the front of the waiting order; the operation is sent with an
issue record whose deadline is the issue time plus MTIMEOUT. Without a free credit nothing is issued. All that joins the
waiting order at the event has joined it (`before.settleBefore`, log entry 6). An SWRITE carries the
valid line of the entry's data, for a requester's write or merge and for a fill whatever the mode, and for a scan, repair or
copy but where its read phase calls for the void form. -/
def Obligations.IssueGrantSendsTheOperation : Prop :=
  ∀ before : State,
    let s := before.settleBefore .issueGrant
    (∀ (i : Fin 64) (e : Entry), s.memory.link = .up → s.memory.records.length < s.memory.announced.getD 0 →
      s.entry i = some e →
      (s.memory.waiting.find? s.isCopy = some i
        ∨ ((∀ j ∈ s.memory.waiting, s.isCopy j = false) ∧ s.memory.waiting.head? = some i)) →
      exec .issueGrant before = .next
        { s with
          tracker :=
            { s.tracker with entries :=
              s.tracker.entries.set i.val (some { e with phase := if e.writing then .awaitingDone else .awaitingData }) }
          memory :=
            { s.memory with
              waiting := s.memory.waiting.filter (· ≠ i)
              records := s.memory.records ++
                [{ tag := i, op := if e.writing then .write else .read, issued := s.events.time
                   deadline := s.events.time + BitVec.ofNat 32 s.memory.mtimeout }]
              sent := s.memory.sent ++
                [if e.writing then .swrite i (e.physical.getD e.line) e.storedLine
                 else .sread i (e.physical.getD e.line)] } })
    ∧ (s.memory.link = .down ∨ s.memory.announced.getD 0 ≤ s.memory.records.length ∨ s.memory.waiting = [] →
      exec .issueGrant before = .next s)
    ∧ (∀ (e : Entry) (d : Data), e.data = some d →
      (∀ k, e.origin = .requester k → e.storedLine = encodeLine d)
      ∧ (e.origin = .fill → e.storedLine = encodeLine d)
      ∧ (e.origin = .scan ∨ e.origin = .repair → e.finding ≠ some .uncorrectable → e.storedLine = encodeLine d)
      ∧ (e.origin = .copy → e.finding ≠ some .uncorrectable → e.finding ≠ some .void → e.storedLine = encodeLine d))
    ∧ (∀ e : Entry,
      (e.origin = .scan ∨ e.origin = .repair → e.finding = some .uncorrectable → e.storedLine = voidForm)
      ∧ (e.origin = .copy → e.finding = some .uncorrectable ∨ e.finding = some .void → e.storedLine = voidForm))

/-! ### The memory link -/

/-- A valid HELLO takes the link UP with its credits and capacity, sets every region beyond the capacity OFFLINE, compares
the spare area with the capacity, and raises the records of R155 in order. That the RETIRE_FAILED records of the queued
retirements carry no region is the model's reading (log entry 13, DEDUCED). `s.settle` is log entry 1. -/
def Obligations.ValidMemoryHelloTakesTheLinkUp : Prop :=
  ∀ (s : State) (credits : Byte) (capacity : BitVec 64), s.settle.memory.link = .down →
    1 ≤ credits.toNat → credits.toNat ≤ 64 → 1 ≤ capacity.toNat → capacity.toNat ≤ 4294967296 →
    let t := s.settle
    let clips (r : Region) : Bool := decide (r.phase ≠ .filling) && decide (capacity.toNat ≤ r.limit.toNat)
    let clipped : List Notice := (List.finRange 32).filterMap fun i => (t.region i).bind fun r =>
      if clips r then some { kind := .regionClipped, region := some i, line := some r.limit } else none
    let beyond (a : SpareArea) : Prop := capacity.toNat < a.base.toNat + a.spares.length
    let up : Notice :=
      { kind := .memoryLinkUp, count := some credits.toNat, line := some (BitVec.ofNat 32 (capacity.toNat - 1)) }
    ∃ u, exec (.memoryHello credits capacity) s = .next u
      ∧ u.memory =
          { t.memory with
            link := .up, announced := some credits.toNat, capacity := some capacity.toNat, records := []
            helloStart := none }
      ∧ (∀ i, u.region i = (t.region i).map fun r => if clips r then { r with phase := .offline } else r)
      ∧ u.port = t.port ∧ u.tracker = t.tracker ∧ u.patrol = t.patrol ∧ u.management = t.management
      ∧ u.pending = t.pending
      ∧ (t.retirement.area = none → u.retirement = t.retirement ∧ u.history = t.history
        ∧ u.events = t.events.pushAll (up :: clipped))
      ∧ (∀ a, t.retirement.area = some a → ¬beyond a →
        u.retirement = { t.retirement with unavailable := false } ∧ u.history = t.history
        ∧ u.events = t.events.pushAll (up :: clipped))
      ∧ (∀ a, t.retirement.area = some a → beyond a →
        u.retirement =
          { t.retirement with
            unavailable := true, queue := []
            area := some
              { a with spares := t.retirement.queue.foldl (fun xs q => xs.set q.spare .free) a.spares } }
        ∧ (∀ j, u.slot j = (t.slot j).map fun e =>
            if e.retire = .queued ∧ (t.retirement.queue.any fun q => q.line = e.line && q.origin = .auto) = true then
              { e with retire := .none }
            else e)
        ∧ u.events = t.events.pushAll
            (up :: clipped
              ++ { kind := .spareClipped, physical := some a.base, count := some a.spares.length }
              :: t.retirement.queue.map fun q =>
                { kind := .retireFailed, line := some q.line, spare := some q.spare, origin := some q.origin.event
                  reason := some .spareUnavailable, requester := q.origin.name }))

/-- A HELLO that is not valid, or that arrives while the link is UP, and a badly framed packet while UP, raise
PROTOCOL_ERROR with their reason and change nothing else. While the link is DOWN a HELLO is sent each 1,000 microseconds;
the timer does nothing before (log entry 4), and is stopped while the link is UP. Two readings are the model's: the next
period begins at the end of the last, also when the expiry is taken late (log entry 20, DEDUCED), and a well-framed pair
named in the row of badly framed packets is discarded while DOWN too (log entry 5, DESIGN CHOICE). `s.settle` is log entry
1. -/
def Obligations.MemoryPortHellosAndErrors : Prop :=
  (∀ s : State,
    let error (why : Reason) : Host.Outcome State Fault Refusal :=
      .next { s.settle with events := s.settle.events.push { kind := .protocolError, reason := some why } }
    (∀ (credits : Byte) (capacity : BitVec 64),
      (s.settle.memory.link = .up → exec (.memoryHello credits capacity) s = error .memoryHelloWhileUp)
      ∧ (s.settle.memory.link = .down →
        ¬(1 ≤ credits.toNat ∧ credits.toNat ≤ 64 ∧ 1 ≤ capacity.toNat ∧ capacity.toNat ≤ 4294967296) →
        exec (.memoryHello credits capacity) s = error .memoryHelloInvalid))
    ∧ (∀ (kind : Byte) (n : Nat),
      (s.settle.memory.link = .up → memoryLength kind = none →
        exec (.memoryBadPacket kind n) s = error .memoryUnknownKind)
      ∧ (∀ m, s.settle.memory.link = .up → memoryLength kind = some m → m ≠ n →
        exec (.memoryBadPacket kind n) s = error .memoryBadLength)
      ∧ (s.settle.memory.link = .down → exec (.memoryBadPacket kind n) s = .next s.settle)))
  ∧ (∀ s : State,
    (∀ h, s.settle.memory.link = .down → s.settle.memory.helloStart = some h →
      (1000 ≤ (s.settle.events.time - h).toNat → exec .helloTimerExpiry s = .next
        { s.settle with memory :=
            { s.settle.memory with helloStart := some (h + 1000), sent := s.settle.memory.sent ++ [.hello] } })
      ∧ ((s.settle.events.time - h).toNat < 1000 → exec .helloTimerExpiry s = .next s.settle))
    ∧ (s.settle.memory.link = .up ∨ s.settle.memory.helloStart = none →
      exec .helloTimerExpiry s = .next s.settle))

/-- A memory-link loss, by a RESET or a loss of signal, ends every tracker entry and the fill, empties the port but for C,
the announced credits and MTIMEOUT, sends a HELLO, and answers LINK_LOST, in ascending order of index (log entry 15, DESIGN
CHOICE). A copy in progress fails, its spare condemned if its write had been issued; what `copyFail` does is stated on its
own. While DOWN neither has an effect. `s.settle` is log entry 1. -/
def Obligations.MemoryLossEndsEveryEntry : Prop :=
  ∀ s : State,
    let t := s.settle
    let answers : List OutPacket := (List.finRange 64).filterMap fun i => (t.entry i).bind fun e =>
      match e.origin with
      | .requester k =>
        if e.phase = .expired ∨ k.abandoned = true then none
        else if k.kind = .read then some (.ldata k.name.1 k.name.2 .linkLost false zeroData)
        else some (.ldone k.name.1 k.name.2 .linkLost)
      | _ => none
    let filled : List Notice := match t.patrol.fill with
      | none => []
      | some f =>
        [if f.phase = .failing then
          { kind := .fillFailed, region := some f.region, line := f.failed.map (·.line)
            physical := f.failed.map (·.physical), reason := f.failed.map (·.reason.reason) }
        else { kind := .fillFailed, region := some f.region, line := f.watermark, reason := some .linkLost }]
    let lost (why : Reason) (u : State) : Prop :=
      u.memory =
          { t.memory with
            link := .down, records := [], waiting := [], helloStart := some t.events.time
            sent := t.memory.sent ++ [.hello] }
      ∧ (∀ i, u.entry i = none) ∧ u.tracker.order = []
      ∧ u.patrol = { t.patrol with fill := none }
      ∧ (∀ i, u.region i = (t.region i).map fun r =>
          if (t.patrol.fill.any fun f => f.region = i) = true then { r with phase := .offline } else r)
      ∧ u.port =
          { t.port with transmit := if t.port.link = .up then t.port.transmit ++ answers else t.port.transmit }
      ∧ u.management = t.management ∧ u.pending = t.pending
      ∧ (t.copyEntry = none → u.retirement = t.retirement ∧ u.history = t.history
        ∧ u.events = t.events.pushAll ({ kind := .memoryLinkDown, reason := some why } :: filled))
      ∧ (∀ e, t.copyEntry = some e →
        let before : State :=
          { t with events := t.events.pushAll ({ kind := .memoryLinkDown, reason := some why } :: filled) }
        let failed : State :=
          if e.phase = .waitingLine then before.copyFail false false .linkLostBeforeWrite e.region
          else if e.phase = .awaitingDone then before.copyFail true true .linkLostAfterWrite e.region
          else before.copyFail true false .linkLostBeforeWrite e.region
        u.retirement = failed.retirement ∧ u.history = failed.history ∧ u.events = failed.events)
    (t.memory.link = .up →
      (∃ u, exec .memoryReset s = .next u ∧ lost .targetReset u)
      ∧ (∃ u, exec .memoryLossOfSignal s = .next u ∧ lost .lossOfSignal u))
    ∧ (t.memory.link = .down →
      exec .memoryReset s = .next t ∧ exec .memoryLossOfSignal s = .next t)

/-! ### Completions -/

/-- An SDATA with status OK finishes a requester READ: as stored under UNCHECKED; under CORRECTING with the outcome's
status, data, counter, repair offer and event, but for an abandoned entry no answer and no count.
`s.settle` is log entry 1. -/
def Obligations.ReadsFinishOnTheirData : Prop :=
  ∀ (s : State) (tag : Byte) (l : StoredLine) (i : Fin 64) (e : Entry) (k : Ticket) (g : Fin 32) (r : Region),
    s.settle.Takes .read tag i e → e.origin = .requester k → k.kind = .read → e.region = some g →
    s.settle.region g = some r →
    let freed := s.settle.freeCredit i
    let answer (x : Status) (corrected : Bool) (d : Data) : State := if k.abandoned then freed else
      freed.hand (.ldata (BitVec.ofNat 8 k.requester.val) (BitVec.ofNat 8 k.tag.val) x corrected d)
    let counted (f : Stats → Stats) (u : State) : State := if k.abandoned then u else
      u.setRegion g (some { r with stats := f r.stats })
    let notice (kind : EventKind) (p : Option (Fin 72)) : Notice :=
      { kind := kind, line := some e.line, physical := e.physical, region := some g
        requester := some (BitVec.ofNat 8 k.requester.val, BitVec.ofNat 8 k.tag.val), origin := some .requester
        symbol := p }
    let up (n : BitVec 32) : BitVec 32 := if n.toNat = 4294967295 then n else n + 1
    (e.mode = some .unchecked →
      exec (.sdata tag 0 l) s = .next ((answer .ok false (dataOf l)).release i))
    ∧ (e.mode = some .correcting →
      ((classify l).1 = .clean → exec (.sdata tag 0 l) s = .next ((answer .ok false (classify l).2).release i))
      ∧ (∀ p, (classify l).1 = .corrected p → exec (.sdata tag 0 l) s = .next
          (let v := counted (fun x => { x with corrected := up x.corrected }) (answer .ok true (classify l).2)
            let u := v.offerRepair e.line
            (if r.reportCorrections then u.raise (notice .correctedRead (some p)) else u).release i))
      ∧ ((classify l).1 = .uncorrectable → exec (.sdata tag 0 l) s = .next
          ((((counted (fun x => { x with uncorrectable := up x.uncorrectable })
            (answer .uncorrectable false (classify l).2)).offerRepair e.line).raise
            (notice .uncorrectable none)).release i))
      ∧ ((classify l).1 = .void → exec (.sdata tag 0 l) s = .next
          (((counted (fun x => { x with void := up x.void }) (answer .void false zeroData)).raise
            (notice .voidRead none)).release i)))

/-- An SDATA with status OK ends a MERGE's read phase: it goes on to its write with the merged data, or is answered VOID or
UNCORRECTABLE; an abandoned merge issues no write and offers its line if it was in error.
`s.settle` is log entry 1. -/
def Obligations.MergesReadBeforeTheyWrite : Prop :=
  ∀ (s : State) (tag : Byte) (l : StoredLine) (i : Fin 64) (e : Entry) (k : Ticket) (m : Mask) (new : Data),
    s.settle.Takes .read tag i e → e.origin = .requester k → k.kind = .merge → e.mask = some m → e.data = some new →
    let freed := s.settle.freeCredit i
    let done (x : Status) : State :=
      freed.hand (.ldone (BitVec.ofNat 8 k.requester.val) (BitVec.ofNat 8 k.tag.val) x)
    let writes (f : Option Finding) (d : Data) : State := freed.wait i
      { e with writing := true, finding := f, data := some (Vector.ofFn fun j : Fin 64 =>
          if m.getLsbD j.val then new[j.val] else d[j.val]) }
    (e.mode = some .unchecked →
      (k.abandoned = true → exec (.sdata tag 0 l) s = .next (freed.release i))
      ∧ (k.abandoned = false → exec (.sdata tag 0 l) s = .next (writes none (dataOf l))))
    ∧ (e.mode = some .correcting → k.abandoned = true →
      ((classify l).1 = .clean ∨ (classify l).1 = .void → exec (.sdata tag 0 l) s = .next (freed.release i))
      ∧ (¬((classify l).1 = .clean ∨ (classify l).1 = .void) →
        exec (.sdata tag 0 l) s = .next ((freed.offerRepair e.line).release i)))
    ∧ (e.mode = some .correcting → k.abandoned = false →
      ((classify l).1 = .clean ∨ (∃ p, (classify l).1 = .corrected p) →
        exec (.sdata tag 0 l) s = .next (writes (some (classify l).1) (classify l).2))
      ∧ ((classify l).1 = .void → exec (.sdata tag 0 l) s = .next ((done .void).release i))
      ∧ ((classify l).1 = .uncorrectable →
        exec (.sdata tag 0 l) s = .next (((done .uncorrectable).offerRepair e.line).release i)))

/-- An SDATA with status OK ends a scan's or repair's read: CLEAN and VOID finish it, CORRECTED leads to a write-back of the
corrected data and UNCORRECTABLE to a write of the void form, to the same physical line. An SDONE with status OK finishes
it: a write-back is reported, with REPAIRED before it if the region reports corrections; a void write raises LINE_VOIDED.
`s.settle` is log entry 1. -/
def Obligations.ScansAndRepairsReadAndWriteBackTheirLine : Prop :=
  (∀ (s : State) (tag : Byte) (l : StoredLine) (i : Fin 64) (e : Entry),
    s.settle.Takes .read tag i e → e.origin = .scan ∨ e.origin = .repair →
    let freed := s.settle.freeCredit i
    ((classify l).1 = .clean ∨ (classify l).1 = .void → exec (.sdata tag 0 l) s = .next (freed.release i))
    ∧ (∀ p, (classify l).1 = .corrected p →
      exec (.sdata tag 0 l) s = .next
        (freed.wait i { e with writing := true, finding := some (.corrected p), data := some (classify l).2 })
      ∧ ({ e with writing := true, finding := some (.corrected p), data := some (classify l).2 } : Entry).storedLine
        = encodeLine (classify l).2)
    ∧ ((classify l).1 = .uncorrectable →
      exec (.sdata tag 0 l) s = .next (freed.wait i { e with writing := true, finding := some .uncorrectable })
      ∧ ({ e with writing := true, finding := some .uncorrectable } : Entry).storedLine = voidForm))
  ∧ (∀ (s : State) (tag : Byte) (i : Fin 64) (e : Entry) (g : Fin 32) (r : Region) (o : WriteBackOrigin) (v : EventOrigin),
    s.settle.Takes .write tag i e →
    (e.origin = .scan ∧ o = .scan ∧ v = .scan) ∨ (e.origin = .repair ∧ o = .repair ∧ v = .repair) →
    e.region = some g → s.settle.region g = some r →
    let freed := s.settle.freeCredit i
    let notice (kind : EventKind) (p : Option (Fin 72)) : Notice :=
      { kind := kind, line := some e.line, physical := e.physical, region := some g, origin := some v, symbol := p }
    (∀ p, e.finding = some (.corrected p) → exec (.sdone tag 0) s = .next
      (((if r.reportCorrections then freed.raise (notice .repaired (some p)) else freed).reportWriteBack
        e.line g p o).release i))
    ∧ (e.finding = some .uncorrectable →
      exec (.sdone tag 0) s = .next ((freed.raise (notice .lineVoided none)).release i)))

/-- An SDATA with status OK ends a copy's read of its source: the write goes to the new spare and sends the data, or the
void form with the copy's void flag set. `s.settle` is log entry 1. -/
def Obligations.CopiesReadTheirSource : Prop :=
  ∀ (s : State) (tag : Byte) (l : StoredLine) (i : Fin 64) (e : Entry) (job : CopyJob) (a : SpareArea),
    s.settle.Takes .read tag i e → e.origin = .copy → s.settle.retirement.copy = some job →
    s.settle.retirement.area = some a →
    let bad : Prop := (classify l).1 = .uncorrectable ∨ (classify l).1 = .void
    ∃ x : Entry, x.line = e.line ∧ x.origin = .copy ∧ x.region = e.region ∧ x.writing = true
      ∧ x.physical = some (a.base + BitVec.ofNat 32 job.spare)
      ∧ (bad → x.storedLine = voidForm) ∧ (¬bad → x.storedLine = encodeLine (classify l).2)
      ∧ ∃ v : Bool, (v = true ↔ bad) ∧ exec (.sdata tag 0 l) s = .next
        (State.wait i x
          { s.settle.freeCredit i with retirement :=
              { s.settle.retirement with copy := some { job with void := v } } })

/-- An SDONE with status OK finishes a WRITE or a MERGE: it is answered OK, and a merge that had corrected reports its
write-back to the history table, abandoned or not. `s.settle` is log entry 1. -/
def Obligations.WritesAndMergesFinishOnTheirAcknowledgement : Prop :=
  ∀ (s : State) (tag : Byte) (i : Fin 64) (e : Entry) (k : Ticket) (g : Fin 32),
    s.settle.Takes .write tag i e → e.origin = .requester k → k.kind ≠ .read → e.region = some g →
    let freed := s.settle.freeCredit i
    let answered := if k.abandoned then freed else
      freed.hand (.ldone (BitVec.ofNat 8 k.requester.val) (BitVec.ofNat 8 k.tag.val) .ok)
    (∀ p, e.finding = some (.corrected p) →
      exec (.sdone tag 0) s = .next ((answered.reportWriteBack e.line g p .merge).release i))
    ∧ ((∀ p, e.finding ≠ some (.corrected p)) → exec (.sdone tag 0) s = .next (answered.release i))

/-- An acknowledged fill write sets the watermark to the lowest line not yet acknowledged; with none left an ISSUING fill
completes, and a STOPPING or FAILING one ends when nothing is outstanding. `s.settle` is log entry 1. -/
def Obligations.FillWritesRaiseTheWatermark : Prop :=
  ∀ (s : State) (tag : Byte) (i : Fin 64) (e : Entry) (f : Fill) (r : Region),
    s.settle.Takes .write tag i e → e.origin = .fill → s.settle.patrol.fill = some f →
    s.settle.region f.region = some r →
    let u := (s.settle.freeCredit i).release i
    let rest := f.outstanding.filter (· ≠ e.line)
    let g : Fill := { f with outstanding := rest, watermark := (rest ++ f.unwritten).foldl lowerLine f.cursor }
    let fill (x : Option Fill) (v : State) : State := { v with patrol := { v.patrol with fill := x } }
    (∀ w, g.watermark = some w ↔
      (w ∈ rest ∨ w ∈ f.unwritten ∨ f.cursor = some w)
        ∧ ∀ x, x ∈ rest ∨ x ∈ f.unwritten ∨ f.cursor = some x → w.toNat ≤ x.toNat)
    ∧ (f.phase = .issuing → g.watermark ≠ none → exec (.sdone tag 0) s = .next (fill (some g) u))
    ∧ (f.phase = .issuing → g.watermark = none → exec (.sdone tag 0) s = .next
      ((fill none (u.setRegion f.region (some { r with phase := .online, cursor := r.base }))).raise
        { kind := .fillDone, region := some f.region, line := some r.limit }))
    ∧ (f.phase ≠ .issuing → rest ≠ [] → exec (.sdone tag 0) s = .next (fill (some g) u))
    ∧ (f.phase = .stopping → rest = [] → exec (.sdone tag 0) s = .next
      ((fill none (u.setRegion f.region (some { r with phase := .offline }))).raise
        (match g.watermark with
        | some w =>
          { kind := .fillStopped, region := some f.region, line := some w, reason := some .partialFill }
        | none =>
          { kind := .fillStopped, region := some f.region, line := some r.limit, reason := some .allWritten })))
    ∧ (∀ x, f.phase = .failing → f.failed = some x → rest = [] → exec (.sdone tag 0) s = .next
      ((fill none (u.setRegion f.region (some { r with phase := .offline }))).raise
        { kind := .fillFailed, region := some f.region, line := some x.line, physical := some x.physical
          reason := some (match x.reason with
            | .targetError => .targetError
            | .timeout => .timeout) }))

/-- An acknowledged copy retires its line: the map entry is ACTIVE on the new spare, which is IN_USE, the old spare of a
re-retire is DEFECTIVE, history and repair queue forget the line, and RETIRE_DONE is raised.
`s.settle` is log entry 1. -/
def Obligations.CopiesRetireTheirLineOnAcknowledgement : Prop :=
  ∀ (s : State) (tag : Byte) (i : Fin 64) (e : Entry) (job : CopyJob) (a : SpareArea) (m : MapEntry),
    s.settle.Takes .write tag i e → e.origin = .copy → s.settle.retirement.copy = some job →
    s.settle.retirement.area = some a → s.settle.retirement.entry job.line = some m →
    let t := s.settle
    let moved := a.spares.set job.spare .inUse
    ∃ u, exec (.sdone tag 0) s = .next u
      ∧ u.retirement =
          { t.retirement with
            copy := none
            area := some { a with spares := if m.pending.isSome then moved.set m.spare .defective else moved }
            map := t.retirement.map.map fun x => if x.line = job.line then
              { x with
                spare := job.spare, state := .active, pending := none, auto := decide (job.origin = .auto)
                void := job.void, time := some t.events.time }
              else x }
      ∧ (∀ j, u.slot j = (t.slot j).filter fun x => x.line ≠ job.line)
      ∧ u.patrol = { t.patrol with repairQueue := t.patrol.repairQueue.filter (· ≠ job.line) }
      ∧ u.events = t.events.push
          { kind := .retireDone, line := some job.line, region := e.region, spare := some job.spare
            physical := some (a.base + BitVec.ofNat 32 job.spare), origin := some job.origin.event
            reason := some (if job.void then .void else .data), requester := job.origin.name }
      ∧ u.tracker = (t.release i).tracker
      ∧ u.memory =
          { t.memory with
            records := t.memory.records.filter fun x => x.tag ≠ i, waiting := t.memory.waiting.filter (· ≠ i) }
      ∧ u.port = t.port ∧ u.regions = t.regions ∧ u.management = t.management ∧ u.pending = t.pending

/-- A completion that names no issue record, or a record of the other kind, is discarded with UNMATCHED_COMPLETION and
frees nothing; one that names an EXPIRED entry is late, and frees its credit and its index; while the link is DOWN every
completion is discarded. `s.settle` is log entry 1. -/
def Obligations.CompletionsThatAreNotTaken : Prop :=
  ∀ (s : State) (tag status : Byte) (l : StoredLine),
    let t := s.settle
    let both (x : State) : Prop := exec (.sdata tag status l) s = .next x ∧ exec (.sdone tag status) s = .next x
    let unmatched (why : Reason) : State :=
      { t with events := t.events.push { kind := .unmatchedCompletion, count := some tag.toNat, reason := some why } }
    let late (i : Fin 64) (e : Entry) : State :=
      ((t.freeCredit i).raise
        { kind := .lateCompletion, count := some i.val, line := some e.line, physical := e.physical
          origin := some e.origin.event, reason := some (if status = 0 then .ok else .error) }).release i
    (t.memory.link = .down → both t)
    ∧ (t.memory.link = .up →
      ((∀ r ∈ t.memory.records, r.tag.val ≠ tag.toNat) → both (unmatched .noOperation))
      ∧ (∀ r, t.memory.find tag = some r → r.op = .read → exec (.sdone tag status) s = .next (unmatched .wrongKind))
      ∧ (∀ r, t.memory.find tag = some r → r.op = .write → exec (.sdata tag status l) s = .next (unmatched .wrongKind))
      ∧ (∀ r e, t.memory.find tag = some r → t.entry r.tag = some e → e.phase = .expired →
        (r.op = .read → exec (.sdata tag status l) s = .next (late r.tag e))
        ∧ (r.op = .write → exec (.sdone tag status) s = .next (late r.tag e))))

/-- A completion with status ERROR frees the credit, raises TARGET_ERROR and ends the entry under its origin's rule: a
requester is answered TARGET_ERROR, a scan or repair ends, a fill write fails, a copy fails.
`s.settle` is log entry 1. -/
def Obligations.TargetErrorsFailTheirEntry : Prop :=
  ∀ (s : State) (tag status : Byte) (l : StoredLine) (op : MemoryOp) (i : Fin 64) (e : Entry),
    s.settle.Takes op tag i e → status ≠ 0 →
    let raised := (s.settle.freeCredit i).raise
      { kind := .targetError, line := some e.line, physical := e.physical, origin := some e.origin.event
        region := e.region, requester := e.origin.name, reason := some (if e.writing then .write else .read) }
    let ends (u : State) : Prop :=
      (op = .read → exec (.sdata tag status l) s = .next (u.release i))
      ∧ (op = .write → exec (.sdone tag status) s = .next (u.release i))
    (∀ k, e.origin = .requester k → ends (raised.respondEntry k .targetError false zeroData))
    ∧ (e.origin = .scan ∨ e.origin = .repair → ends raised)
    ∧ (e.origin = .fill → ends (raised.fillWriteFailed e.line (e.physical.getD e.line) .targetError))
    ∧ (e.origin = .copy →
      ends (raised.copyFail true e.writing (if e.writing then .writeError else .readError) e.region))

/-- At the deadline of an outstanding operation its entry becomes EXPIRED, leaves its line order but keeps its index, its
record and its credit, and fails under its origin's rule; before the deadline nothing happens (log entry 4).
`s.settle` is log entry 1. -/
def Obligations.DeadlinesExpireTheirEntry : Prop :=
  ∀ (s : State) (i : Fin 64) (e : Entry) (r : IssueRecord),
    s.settle.entry i = some e → e.phase = .awaitingData ∨ e.phase = .awaitingDone →
    s.settle.memory.records.find? (fun x => decide (x.tag = i)) = some r →
    let t := s.settle
    let expired : State :=
      { t with
        tracker :=
          { entries := t.tracker.entries.set i.val (some { e with phase := .expired })
            order := t.tracker.order.filter (· ≠ i) }
        events := t.events.push
          { kind := .memoryTimeout, line := some e.line, physical := e.physical, origin := some e.origin.event
            region := e.region, requester := e.origin.name, reason := some (if e.writing then .write else .read) } }
    let ends (u : State) : Prop := exec (.completionTimeoutExpiry i) s = .next u
    ((r.deadline - r.issued).toNat ≤ (t.events.time - r.issued).toNat →
      (∀ k, e.origin = .requester k → ends (expired.respondEntry k .timeout false zeroData))
      ∧ (e.origin = .scan ∨ e.origin = .repair → ends expired)
      ∧ (e.origin = .fill → ends (expired.fillWriteFailed e.line (e.physical.getD e.line) .timeout))
      ∧ (e.origin = .copy →
        ends (expired.copyFail true e.writing (if e.writing then .writeTimeout else .readTimeout) e.region)))
    ∧ ((t.events.time - r.issued).toNat < (r.deadline - r.issued).toNat → ends t)

/-- A failed fill write moves the fill to FAILING with its first failed line, and ends it with FILL_FAILED when nothing is
outstanding; the failed line is never acknowledged. -/
def Obligations.FailedFillWritesEndTheFill : Prop :=
  ∀ (s : State) (f : Fill) (r : Region) (l physical : LineNo) (why : FillFailure),
    s.patrol.fill = some f → s.region f.region = some r → (f.failed.isSome ↔ f.phase = .failing) →
    let first : FailedLine := f.failed.getD { line := l, physical := physical, reason := why }
    let rest := f.outstanding.filter (· ≠ l)
    let failing : Fill :=
      { f with phase := .failing, outstanding := rest, unwritten := f.unwritten ++ [l], failed := some first }
    (rest ≠ [] → s.fillWriteFailed l physical why = { s with patrol := { s.patrol with fill := some failing } })
    ∧ (rest = [] → s.fillWriteFailed l physical why =
      { s with
        patrol := { s.patrol with fill := none }
        regions := s.regions.set f.region.val (some { r with phase := .offline })
        events := s.events.push
          { kind := .fillFailed, region := some f.region, line := some first.line, physical := some first.physical
            reason := some (match first.reason with
              | .targetError => .targetError
              | .timeout => .timeout) } })

/-- A failed copy frees its spare if its write was not issued and condemns it if it was, restores the map if it had become
owner, raises RETIRE_FAILED, and returns an AUTO line's QUEUED entry to NONE; a memory-link loss fails the copy so. -/
def Obligations.FailedCopiesRestoreTheMap : Prop :=
  (∀ (s : State) (owner issued : Bool) (why : Reason) (g : Option (Fin 32)) (job : CopyJob) (a : SpareArea),
    s.retirement.copy = some job → s.retirement.area = some a →
    let u := s.copyFail owner issued why g
    u.retirement =
        { s.retirement with
          copy := none
          area := some { a with spares := a.spares.set job.spare (if issued then .defective else .free) }
          map := match owner, s.retirement.entry job.line with
            | true, some m =>
              if m.pending.isSome then
                s.retirement.map.map fun x => if x.line = job.line then { x with state := .active, pending := none } else x
              else s.retirement.map.filter fun x => x.line ≠ job.line
            | _, _ => s.retirement.map }
    ∧ (∀ j, u.slot j = (s.slot j).map fun x =>
        if job.origin = .auto ∧ x.line = job.line ∧ x.retire = .queued then { x with retire := .none } else x)
    ∧ u.events = s.events.push
        { kind := .retireFailed, line := some job.line, region := g, spare := some job.spare
          origin := some job.origin.event, reason := some why, requester := job.origin.name }
    ∧ u.port = s.port ∧ u.regions = s.regions ∧ u.tracker = s.tracker ∧ u.memory = s.memory ∧ u.patrol = s.patrol
    ∧ u.management = s.management ∧ u.pending = s.pending)
  ∧ (∀ (s : State) (e : Entry), s.copyEntry = some e →
    (e.phase = .waitingLine → s.copyLost = s.copyFail false false .linkLostBeforeWrite e.region)
    ∧ (e.phase = .waitingIssue ∨ e.phase = .awaitingData →
      s.copyLost = s.copyFail true false .linkLostBeforeWrite e.region)
    ∧ (e.phase = .awaitingDone → s.copyLost = s.copyFail true true .linkLostAfterWrite e.region))

/-! ### Patrol, repair, fill, copy and delivery -/

/-- An expiry of the slot timer serves the first eligible region after the pointer: one scan entry for each line from its
cursor, up to its burst, the free entries and its limit, where the cursor returns to the base and the pass count goes on.
An expiry whose conditions fail only restarts the period; before the period has run nothing happens (log entry 4). That
the next period begins at the end of the last, also when the expiry is taken late, is the model's reading (log entry 20,
DEDUCED). `s.settle` is log entry 1. -/
def Obligations.ScanSlotsServeTheNextEligibleRegion : Prop :=
  ∀ s : State,
    let t := s.settle
    let due : Prop := t.patrol.slotPeriod ≤ (t.events.time - t.patrol.slotStart).toNat
    let after := t.patrol.slotStart + BitVec.ofNat 32 t.patrol.slotPeriod
    let isOpen : Prop := t.patrol.scanEnabled = true ∧ t.memory.link = .up ∧ t.patrol.fill = none
      ∧ t.occupancy .patrol < 6
    let eligible (r : Region) : Prop := r.phase = .online ∧ r.mode = .correcting ∧ r.patrol = true
    let passedOver : State := { t with patrol := { t.patrol with slotStart := after } }
    (¬due → exec .slotTimerExpiry s = .next t)
    ∧ (due → t.TrackerSound →
      (¬isOpen → exec .slotTimerExpiry s = .next passedOver)
      ∧ (isOpen → (∀ i r, t.region i = some r → ¬eligible r) → exec .slotTimerExpiry s = .next passedOver)
      ∧ (isOpen → ∀ (k : Fin 32) (r : Region),
        t.region (t.patrol.pointer + 1 + k) = some r → eligible r → r.Sound →
        (∀ j : Fin 32, j < k → ∀ q, t.region (t.patrol.pointer + 1 + j) = some q → ¬eligible q) →
        let i := t.patrol.pointer + 1 + k
        let left := r.limit.toNat - r.cursor.toNat + 1
        let allowed := min r.burst (6 - t.occupancy .patrol)
        let created := min allowed left
        let wraps : Prop := left ≤ allowed
        ∃ (u : State) (js : List (Fin 64)), exec .slotTimerExpiry s = .next u
          ∧ js.length = created ∧ u.tracker.order = t.tracker.order ++ js
          ∧ (∀ n j, js[n]? = some j → t.entry j = none ∧ ∃ e, u.entry j = some e ∧ e.origin = .scan
            ∧ e.line = r.cursor + BitVec.ofNat 32 n ∧ e.region = some i ∧ e.mode = some .correcting ∧ e.writing = false)
          ∧ (∀ j, j ∉ js → u.entry j = t.entry j)
          ∧ (∃ ws, ws.Sublist js ∧ u.memory = { t.memory with waiting := t.memory.waiting ++ ws, joined := ws })
          ∧ u.patrol = { t.patrol with slotStart := after, pointer := i }
          ∧ (¬wraps → u.region i = some { r with cursor := r.cursor + BitVec.ofNat 32 created } ∧ u.events = t.events)
          ∧ (wraps → u.region i = some { r with cursor := r.base, passes := r.passes + 1 }
            ∧ u.events = if r.reportPasses then
                t.events.push { kind := .passDone, region := some i, count := some (r.passes + 1).toNat }
              else t.events)
          ∧ (∀ j, j ≠ i → u.region j = t.region j)
          ∧ u.port = t.port ∧ u.history = t.history ∧ u.retirement = t.retirement ∧ u.management = t.management
          ∧ u.pending = t.pending))

/-- The head of the repair queue is dropped, or becomes a repair entry if its region is ONLINE and CORRECTING; the head of
the retire queue becomes a copy entry. With no line, no free entry or the memory link DOWN nothing happens (log entry 2).
A line offered to the repair queue joins its end unless it is there or the queue is full. Service goes on head after head,
for as long as the queue has a line, the pool an entry and the memory link is UP. -/
def Obligations.RepairsAndCopiesStartFromTheirQueues : Prop :=
  (∀ s : State,
    (∀ (l : LineNo) (rest : List LineNo) (slot : Fin 64), s.patrol.repairQueue = l :: rest →
      s.slotFor .patrol = some slot → s.memory.link = .up →
      let t : State := { s with patrol := { s.patrol with repairQueue := rest } }
      (s.lookup l = none → exec .repairService s = .next t)
      ∧ (∀ i r, s.lookup l = some (i, r) →
        (¬(r.phase = .online ∧ r.mode = .correcting) → exec .repairService s = .next t)
        ∧ (r.phase = .online ∧ r.mode = .correcting → exec .repairService s = .next
          (t.create slot
            { origin := .repair, line := l, physical := none, region := some i, mode := some .correcting, data := none
              mask := none, phase := .waitingLine, writing := false, finding := none }))))
    ∧ (s.patrol.repairQueue = [] ∨ s.slotFor .patrol = none ∨ s.memory.link = .down →
      exec .repairService s = .next s))
  ∧ (∀ s : State,
    (∀ (q : RetireEntry) (rest : List RetireEntry) (i : Fin 64), s.retirement.queue = q :: rest →
      s.slotFor .copy = some i → s.memory.link = .up →
      exec .copyStart s = .next
        (State.create i
          { origin := .copy, line := q.line, physical := none, region := (s.lookup q.line).map (·.1), mode := none
            data := none, mask := none, phase := .waitingLine, writing := false, finding := none }
          { s with retirement :=
              { s.retirement with
                queue := rest, copy := some { line := q.line, origin := q.origin, spare := q.spare, void := false } } }))
    ∧ (s.retirement.queue = [] ∨ s.slotFor .copy = none ∨ s.memory.link = .down → exec .copyStart s = .next s))
  ∧ (∀ (s : State) (l : LineNo),
    (l ∈ s.patrol.repairQueue ∨ 8 ≤ s.patrol.repairQueue.length → s.offerRepair l = s)
    ∧ (l ∉ s.patrol.repairQueue → s.patrol.repairQueue.length < 8 →
      s.offerRepair l = { s with patrol := { s.patrol with repairQueue := s.patrol.repairQueue ++ [l] } })
    ∧ s.offerAndServe l = (s.offerRepair l).serveRepairs)
  ∧ (∀ s : State,
    let ready : Prop := s.patrol.repairQueue ≠ [] ∧ s.slotFor .patrol ≠ none ∧ s.memory.link = .up
    (ready → exec .repairService s = .next s.repairService ∧ s.serveRepairs = s.repairService.serveRepairs)
    ∧ (¬ready → s.serveRepairs = s))

/-- The fill engine creates entries of zero data for the lines from its cursor until the patrol pool is full or the limit
is passed; it waits while the repair queue takes the free entries. -/
def Obligations.FillIssueCreatesEntriesFromTheCursor : Prop :=
  ∀ s : State,
    (s.repairReady = true ∨ s.patrol.fill = none → exec .fillIssue s = .next s)
    ∧ (∀ f, s.patrol.fill = some f → f.phase ≠ .issuing ∨ f.cursor = none → exec .fillIssue s = .next s)
    ∧ (∀ (f : Fill) (l : LineNo) (r : Region), s.repairReady = false → s.TrackerSound → s.patrol.fill = some f →
      f.phase = .issuing → f.cursor = some l → s.region f.region = some r → l.toNat ≤ r.limit.toNat →
      let left := r.limit.toNat - l.toNat + 1
      let created := min (6 - s.occupancy .patrol) left
      let lines := (List.range created).map fun n => l + BitVec.ofNat 32 n
      let ahead : Fill :=
        { f with
          cursor := if created = left then none else some (l + BitVec.ofNat 32 created)
          outstanding := f.outstanding ++ lines }
      ∃ (u : State) (js : List (Fin 64)), exec .fillIssue s = .next u
        ∧ js.length = created ∧ u.tracker.order = s.tracker.order ++ js
        ∧ (∀ n j, js[n]? = some j → s.entry j = none ∧ ∃ e, u.entry j = some e ∧ e.origin = .fill
          ∧ e.line = l + BitVec.ofNat 32 n ∧ e.region = some f.region ∧ e.data = some zeroData ∧ e.writing = true)
        ∧ (∀ j, j ∉ js → u.entry j = s.entry j)
        ∧ (∃ ws : List (Fin 64), ws.Sublist js ∧ u.memory = ws.foldl (fun m j => m.join j) s.memory)
        ∧ u.patrol = { s.patrol with fill := some ahead }
        ∧ u.port = s.port ∧ u.regions = s.regions ∧ u.history = s.history ∧ u.retirement = s.retirement
        ∧ u.events = s.events ∧ u.management = s.management ∧ u.pending = s.pending)

/-- The head record goes to the manager against one event credit while the link is UP; a lost count above 0 is reported by
EVENTS_LOST at the end of the queue. -/
def Obligations.EventDeliveryHandsTheHeadRecordToTheManager : Prop :=
  ∀ s : State,
    (∀ (r : EventRecord) (rest : List EventRecord), s.events.queue = r :: rest → 0 < s.events.credits →
      s.port.link = .up → s.events.Sound →
      let delivered (u : EventUnit) : Host.Outcome State Fault Refusal := .next
        { s with
          port :=
            { s.port with transmit :=
                s.port.transmit ++ [.mevent (BitVec.ofNat 8 s.management.manager.val) r] }
          events := u }
      (s.events.lost = 0 → exec .eventDelivery s =
        delivered { s.events with queue := rest, credits := s.events.credits - 1 })
      ∧ (0 < s.events.lost → exec .eventDelivery s = delivered
        { s.events with
          queue := rest ++
            [{ seq := s.events.nextSeq, time := s.events.time
               notice := { kind := .eventsLost, count := some s.events.lost } }]
          credits := s.events.credits - 1, lost := 0, nextSeq := s.events.nextSeq + 1 }))
    ∧ (s.events.queue = [] ∨ s.events.credits = 0 ∨ s.port.link = .down → exec .eventDelivery s = .next s)

/-! ### The check coder -/

/-- Classification gives the first outcome that holds, with its data and symbol position, for whatever code the bridge has. -/
def Obligations.ClassificationGivesTheFirstOutcomeThatHolds : Prop :=
  ∀ l : StoredLine,
    let valid : Prop := ∃ d, l = encodeLine d
    let differsAt (p : Fin 72) (d : Data) : Prop :=
      l[p.val] ≠ (encodeLine d)[p.val] ∧ ∀ q : Fin 72, q ≠ p → l[q.val] = (encodeLine d)[q.val]
    (valid → classify l = (.clean, dataOf l))
    ∧ (¬valid → l = voidForm → classify l = (.void, zeroData))
    ∧ (¬valid → l ≠ voidForm → ∀ p d, differsAt p d → classify l = (.corrected p, d))
    ∧ (¬valid → l ≠ voidForm → (∀ p d, ¬differsAt p d) → classify l = (.uncorrectable, dataOf l))
    ∧ (∀ p q d d', differsAt p d → differsAt q d' → p = q ∧ d = d')
    ∧ (∀ p : Fin 72, l[p.val] ≠ voidForm[p.val] → (∀ q : Fin 72, q ≠ p → l[q.val] = voidForm[q.val]) →
      (classify l).1 = .uncorrectable)

/-- One damaged symbol of a valid line is corrected, two are UNCORRECTABLE; one or two damaged symbols of the void form are
UNCORRECTABLE; a line of all 00 or all FF is UNCORRECTABLE. -/
def Obligations.DamageIsClassifiedByItsExtent : Prop :=
  (∀ d : Data, classify (encodeLine d) = (.clean, d))
  ∧ (∀ (d : Data) (p : Fin 72) (v : Byte), v ≠ (encodeLine d)[p.val] →
    classify ((encodeLine d).set p.val v) = (.corrected p, d))
  ∧ (∀ (d : Data) (p q : Fin 72) (v w : Byte), p ≠ q → v ≠ (encodeLine d)[p.val] → w ≠ (encodeLine d)[q.val] →
    (classify (((encodeLine d).set p.val v).set q.val w)).1 = .uncorrectable)
  ∧ classify voidForm = (.void, zeroData)
  ∧ (∀ (p : Fin 72) (v : Byte), v ≠ voidForm[p.val] → (classify (voidForm.set p.val v)).1 = .uncorrectable)
  ∧ (∀ (p q : Fin 72) (v w : Byte), p ≠ q → v ≠ voidForm[p.val] → w ≠ voidForm[q.val] →
    (classify ((voidForm.set p.val v).set q.val w)).1 = .uncorrectable)
  ∧ (∀ v : Byte, v = 0x00 ∨ v = 0xFF → (classify (Vector.replicate 72 v)).1 = .uncorrectable)

/-- The void form: zero data, each check symbol the inverse of the valid one for zero data; it differs from the valid zero
line in all eight check symbols and from every valid line in at least 4 symbols, and it alone is read as VOID. -/
def Obligations.VoidFormIsTheInverseOfTheZeroLine : Prop :=
  dataOf voidForm = zeroData
  ∧ (∀ j : Fin 8, voidForm[64 + j.val] = ~~~(encodeLine zeroData)[64 + j.val]
    ∧ voidForm[64 + j.val] ≠ (encodeLine zeroData)[64 + j.val])
  ∧ (∀ d : Data, 4 ≤ symbolDistance voidForm (encodeLine d))
  ∧ (∀ l : StoredLine, (classify l).1 = .void ↔ l = voidForm)

/-! ### The error history table -/

/-- A corrected write-back inside its region's bounds counts in its line's entry, up to 15, or inserts one with count 1 in
the lowest empty slot; at the region's threshold the line is sent for retirement unless it is QUEUED. One outside the
bounds is discarded. The checks of a retirement are those of R140, in order, and an accepted line joins the retire queue
with the lowest-numbered FREE spare. A full table evicts an entry that is not QUEUED, of the lowest count, the oldest of
those, in the lowest slot of those; a count of 2 or more is reported. -/
def Obligations.CorrectedWriteBacksAreCounted : Prop :=
  (∀ (s : State) (l : LineNo) (g : Fin 32) (r : Region) (p : Fin 72) (o : WriteBackOrigin), s.region g = some r →
    let after (i : Fin 128) (e : HistoryEntry) (v : State) : State :=
      let about (k : EventKind) (why : Option Reason) (spare : Option Nat) : Notice :=
        { kind := k, line := some l, region := some g, count := some e.count, reason := why, spare := spare }
      let deferred (k : EventKind) (why : Reason) : State :=
        (v.setSlot i (some { e with retire := .deferred })).raise (about k (some why) none)
      if r.threshold = 0 ∨ e.count < r.threshold ∨ e.retire = .queued then v.setSlot i (some e)
      else match v.retireCheck l with
        | .accepted n =>
          ((v.enqueueRetire l .auto n).setSlot i (some { e with retire := .queued })).raise
            (about .retireQueued none (some n))
        | .noSpareArea => deferred .sparesExhausted .noSpareArea
        | .beyondCapacity => deferred .retireDeferred .beyondCapacity
        | .inSpareArea => v.setSlot i (some e)
        | .pending => v.setSlot i (some e)
        | .queueFull => deferred .retireDeferred .queueFull
        | .noneFree => deferred .sparesExhausted .noneFree
        | .unavailable => deferred .sparesExhausted .unavailable
    let fresh : HistoryEntry :=
      { line := l, region := g, count := 1, symbol := p, origin := o, updated := s.events.time, retire := .none }
    (r.contains l = false → s.reportWriteBack l g p o = s)
    ∧ (r.contains l = true → ∀ i e, s.HistorySound → s.slot i = some e → e.line = l → e.region = g →
      s.reportWriteBack l g p o =
        after i { e with count := min (e.count + 1) 15, symbol := p, origin := o, updated := s.events.time } s)
    ∧ (r.contains l = true → (∀ i e, s.slot i = some e → e.line ≠ l) → ∀ i evicted, s.takeSlot = some (i, evicted) →
      s.reportWriteBack l g p o = after i fresh { s with events := s.events.pushAll evicted }))
  ∧ (∀ (s : State) (i : Fin 128), s.slot i = none → (∀ j, j < i → s.slot j ≠ none) → s.takeSlot = some (i, []))
  ∧ (∀ (s : State) (i : Fin 128) (e : HistoryEntry), (∀ j, s.slot j ≠ none) → s.slot i = some e →
    e.retire ≠ .queued →
    (∀ j f, s.slot j = some f → f.retire ≠ .queued → j ≠ i →
      e.count < f.count ∨ (e.count = f.count ∧
        ((s.events.time - f.updated).toNat < (s.events.time - e.updated).toNat
          ∨ ((s.events.time - f.updated).toNat = (s.events.time - e.updated).toNat ∧ i < j)))) →
    s.takeSlot = some (i,
      if 2 ≤ e.count then
        [{ kind := .historyEvict, line := some e.line, region := some e.region, count := some e.count
           reason := some (if e.retire = .deferred then .deferred else .none) }]
      else []))
  ∧ (∀ (s : State) (l : LineNo),
    (s.retirement.area = none → s.retireCheck l = .noSpareArea)
    ∧ (∀ a, s.retirement.area = some a →
      let below : Prop := ∃ n, s.memory.capacity = some n ∧ l.toNat < n
      let inArea : Prop := a.base.toNat ≤ l.toNat ∧ l.toNat < a.base.toNat + a.spares.length
      let pending : Prop := (∃ q ∈ s.retirement.queue, q.line = l) ∨ ∃ j, s.retirement.copy = some j ∧ j.line = l
      (¬below → s.retireCheck l = .beyondCapacity)
      ∧ (below → inArea → s.retireCheck l = .inSpareArea)
      ∧ (below → ¬inArea → pending → s.retireCheck l = .pending)
      ∧ (below → ¬inArea → ¬pending → 8 ≤ s.retirement.queue.length → s.retireCheck l = .queueFull)
      ∧ (below → ¬inArea → ¬pending → s.retirement.queue.length < 8 →
        ((.free ∉ a.spares) → s.retireCheck l = .noneFree)
        ∧ (∀ i, a.spares[i]? = some .free → (∀ j, j < i → a.spares[j]? ≠ some .free) →
          (s.retirement.unavailable = true → s.retireCheck l = .unavailable)
          ∧ (s.retirement.unavailable = false → s.retireCheck l = .accepted i)))))
  ∧ (∀ (s : State) (a : SpareArea) (l : LineNo) (o : RetireOrigin) (i : Nat), s.retirement.area = some a →
    s.enqueueRetire l o i =
      { s with retirement :=
          { s.retirement with
            area := some { a with spares := a.spares.set i .reserved }
            queue := s.retirement.queue ++ [{ line := l, origin := o, spare := i }] } })

/-! ### Management commands

`before.settleBefore .command` is log entry 6: what earlier steps allow at their own events has been done. -/

/-- The two checks before every command's own: a sender other than the manager is refused NOT_MANAGER, whatever the code,
and MANAGEMENT_REFUSED is raised; the manager's command of an unknown code is refused UNKNOWN_COMMAND. A row whose command is
not at the head has no effect (log entry 2). -/
def Obligations.CommandsAreCheckedForSenderAndCode : Prop :=
  let rows : List (Instr × Nat) :=
    [(.regionDefine, 1), (.regionModify, 2), (.regionState, 3), (.regionRemove, 4), (.regionQuery, 5), (.patrolSet, 6),
      (.fillStart, 7), (.fillStop, 8), (.historyQuery, 9), (.historyClear, 10), (.spareSet, 11), (.spareMark, 12),
      (.spareQuery, 13), (.retireLine, 14), (.retireCancel, 15), (.retireLoad, 16), (.retireQuery, 17),
      (.timeoutSet, 18), (.eventGrant, 19), (.managerSet, 20), (.freeze, 21), (.deviceQuery, 22)]
  ∀ (before : State) (c : Command) (rest : List Command),
    let s := before.settleBefore .command
    s.port.commands = c :: rest →
    let notManager : Host.Outcome State Fault Refusal := .next
      (((s.takeCommand rest).raise
        { kind := .managementRefused, requester := some (c.requester, c.tag), reason := some .notManager }).answer c
        (.refused .notManager) .empty)
    let unknown : Prop := argCode c.block = 0 ∨ 22 < argCode c.block
    (c.requester.toNat ≠ s.management.manager.val →
      (∀ row ∈ rows, argCode c.block = row.2 → exec row.1 before = notManager)
      ∧ (unknown → exec .unknownCommand before = notManager))
    ∧ (c.requester.toNat = s.management.manager.val → unknown →
      exec .unknownCommand before = .next (s.answerRefused c rest .unknownCommand))
    ∧ (∀ row ∈ rows, argCode c.block ≠ row.2 → exec row.1 before = .next s)
    ∧ (¬unknown → exec .unknownCommand before = .next s)

/-- The fields a REGION_DEFINE gives stand in the block as encoded, and a byte that names no value makes the whole block
bad. REGION_DEFINE makes its checks in order and fills an EMPTY entry with its fields, OFFLINE. -/
def Obligations.RegionDefineFillsAnEmptyEntry : Prop :=
  (∀ b : ArgBlock,
    (∀ r, argRegion b = some r →
      argNat b 5 1 = r.mode.code ∧ argNat b 6 1 = bit r.patrol ∧ argNat b 7 1 = r.burst ∧ argNat b 8 1 = r.threshold
      ∧ argNat b 9 1 = reportFlags r.reportCorrections r.reportPasses ∧ argNat b 10 1 = bit r.fixed
      ∧ argNat b 12 4 = r.base.toNat ∧ argNat b 16 4 = r.limit.toNat
      ∧ (∀ k : Fin 16, argNat b 20 4 / 4 ^ k.val % 4 = r.rights[k.val].code)
      ∧ 1 ≤ r.burst ∧ r.burst ≤ 16 ∧ r.threshold ≤ 15
      ∧ r.phase = .offline ∧ r.stats = { corrected := 0, uncorrectable := 0, void := 0, refused := 0 }
      ∧ r.cursor = r.base ∧ r.passes = 0)
    ∧ (argRegion b = none ↔
      1 < argNat b 5 1 ∨ 1 < argNat b 6 1 ∨ argNat b 7 1 = 0 ∨ 16 < argNat b 7 1 ∨ 15 < argNat b 8 1
      ∨ 3 < argNat b 9 1 ∨ 1 < argNat b 10 1 ∨ ∃ k : Fin 16, argNat b 20 4 / 4 ^ k.val % 4 = 3)
    ∧ (∀ i, argIndex b = some i ↔ argNat b 4 1 = i.val))
  ∧ (∀ (before : State) (c : Command) (rest : List Command),
    let s := before.settleBefore .command
    s.AtHead 1 c rest →
    let refused (why : RefusedReason) : Prop := exec .regionDefine before = .next (s.answerRefused c rest why)
    (argIndex c.block = none → refused .badArgument)
    ∧ (∀ i, argIndex c.block = some i →
      (s.region i ≠ none → refused .state)
      ∧ (s.region i = none →
        (s.memory.capacity = none → refused .linkDown)
        ∧ (∀ n, s.memory.capacity = some n →
          (argRegion c.block = none → refused .badArgument)
          ∧ (∀ r, argRegion c.block = some r →
            let overlap : Prop :=
              (∃ j x, s.region j = some x ∧ x.base.toNat ≤ r.limit.toNat ∧ r.base.toNat ≤ x.limit.toNat)
              ∨ (∃ a, s.retirement.area = some a ∧ a.base.toNat ≤ r.limit.toNat
                ∧ r.base.toNat < a.base.toNat + a.spares.length)
            (r.limit.toNat < r.base.toNat ∨ n ≤ r.limit.toNat → refused .badArgument)
            ∧ (r.base.toNat ≤ r.limit.toNat → r.limit.toNat < n →
              (overlap → refused .overlap)
              ∧ (¬overlap → s.management.frozen = true → r.fixed = true → refused .frozen)
              ∧ (¬overlap → s.management.frozen = false ∨ r.fixed = false →
                exec .regionDefine before = .next
                  (((s.takeCommand rest).setRegion i (some r)).answer c .done .empty))))))))

/-- REGION_MODIFY makes its checks in order and writes the named fields; a change of bounds resets the cursor and has history
and repair queue forget the lines that leave; patrol from off to on resets the cursor. That byte 9 is checked as a whole
when either report flag is named is the model's choice (log entry 9, DESIGN CHOICE). -/
def Obligations.RegionModifyWritesTheNamedFields : Prop :=
  ∀ (before : State) (c : Command) (rest : List Command),
    let s := before.settleBefore .command
    s.AtHead 2 c rest →
    let refused (why : RefusedReason) : Prop := exec .regionModify before = .next (s.answerRefused c rest why)
    let names (k : Nat) : Prop := argSelects c.block k = true
    (argIndex c.block = none → refused .badArgument)
    ∧ (∀ i, argIndex c.block = some i →
      (s.region i = none → refused .state)
      ∧ (∀ r, s.region i = some r →
        let new := modifiedRegion c.block r
        let bad : Prop := (names 1 ∧ argRights c.block = none) ∨ (names 2 ∧ argMode c.block = none)
          ∨ (names 3 ∧ argFlag c.block 6 = none) ∨ (names 4 ∧ argBurst c.block = none)
          ∨ (names 5 ∧ argThreshold c.block = none) ∨ ((names 6 ∨ names 7) ∧ argReports c.block = none)
          ∨ (names 8 ∧ argFlag c.block 10 = none)
        let badBounds : Prop := names 0 ∧ (new.limit.toNat < new.base.toNat
          ∨ ∀ n, s.memory.capacity = some n → n ≤ new.limit.toNat)
        let overlap : Prop := names 0 ∧
          ((∃ j x, j ≠ i ∧ s.region j = some x ∧ x.base.toNat ≤ new.limit.toNat ∧ new.base.toNat ≤ x.limit.toNat)
          ∨ (∃ a, s.retirement.area = some a ∧ a.base.toNat ≤ new.limit.toNat
            ∧ new.base.toNat < a.base.toNat + a.spares.length))
        let closed : Prop := s.management.frozen = true ∧ (r.fixed = true ∨ (names 8 ∧ argFlag c.block 10 = some true))
        ((names 0 ∨ names 2) → r.phase ≠ .offline → refused .state)
        ∧ (¬((names 0 ∨ names 2) ∧ r.phase ≠ .offline) →
          (bad ∨ badBounds → refused .badArgument)
          ∧ (¬bad → ¬badBounds →
            (overlap → refused .overlap)
            ∧ (¬overlap → closed → refused .frozen)
            ∧ (¬overlap → ¬closed → ∃ u : State, exec .regionModify before = .next (u.answer c .done .empty)
              ∧ u.region i = some new ∧ (∀ j, j ≠ i → u.region j = s.region j)
              ∧ (∀ j, u.slot j = (s.slot j).filter fun e =>
                  !(argSelects c.block 0 && decide (e.region = i) && !new.contains e.line))
              ∧ u.patrol =
                  { s.patrol with repairQueue := s.patrol.repairQueue.filter fun l =>
                      !(argSelects c.block 0 && r.contains l && !new.contains l) }
              ∧ u.port = (s.takeCommand rest).port ∧ u.tracker = s.tracker ∧ u.memory = s.memory
              ∧ u.retirement = s.retirement ∧ u.events = s.events ∧ u.management = s.management
              ∧ u.pending = s.pending
              ∧ new.base = (if argSelects c.block 0 then argLine c.block 12 else r.base)
              ∧ new.limit = (if argSelects c.block 0 then argLine c.block 16 else r.limit)
              ∧ (names 1 → argRights c.block = some new.rights) ∧ (¬names 1 → new.rights = r.rights)
              ∧ (names 2 → argMode c.block = some new.mode) ∧ (¬names 2 → new.mode = r.mode)
              ∧ (names 3 → argFlag c.block 6 = some new.patrol) ∧ (¬names 3 → new.patrol = r.patrol)
              ∧ (names 4 → argBurst c.block = some new.burst) ∧ (¬names 4 → new.burst = r.burst)
              ∧ (names 5 → argThreshold c.block = some new.threshold) ∧ (¬names 5 → new.threshold = r.threshold)
              ∧ (names 6 → (argReports c.block).map (·.1) = some new.reportCorrections)
              ∧ (¬names 6 → new.reportCorrections = r.reportCorrections)
              ∧ (names 7 → (argReports c.block).map (·.2) = some new.reportPasses)
              ∧ (¬names 7 → new.reportPasses = r.reportPasses)
              ∧ (names 8 → argFlag c.block 10 = some new.fixed) ∧ (¬names 8 → new.fixed = r.fixed)
              ∧ new.phase = r.phase ∧ new.stats = r.stats ∧ new.passes = r.passes
              ∧ new.cursor = (if argSelects c.block 0 = true ∨ (new.patrol = true ∧ r.patrol = false) then new.base
                else r.cursor))))))

/-- REGION_STATE makes its checks in order and sets the entry to the target state; REGION_QUERY answers the entry as it
stands, and clears its counters afterwards if asked. -/
def Obligations.RegionStateAndQuery : Prop :=
  (∀ (before : State) (c : Command) (rest : List Command),
    let s := before.settleBefore .command
    s.AtHead 3 c rest →
    let refused (why : RefusedReason) : Prop := exec .regionState before = .next (s.answerRefused c rest why)
    (argIndex c.block = none ∨ (argNat c.block 5 1 ≠ 1 ∧ argNat c.block 5 1 ≠ 2) → refused .badArgument)
    ∧ (∀ i target, argIndex c.block = some i →
      (argNat c.block 5 1 = 1 ∧ target = .online) ∨ (argNat c.block 5 1 = 2 ∧ target = .offline) →
      (s.region i = none → refused .state)
      ∧ (∀ r, s.region i = some r →
        let beyond : Prop := target = .online ∧ ∀ n, s.memory.capacity = some n → n ≤ r.limit.toNat
        let closed : Prop := s.management.frozen = true ∧ r.fixed = true
        (r.phase = .filling → refused .state)
        ∧ (r.phase ≠ .filling → beyond → refused .badArgument)
        ∧ (r.phase ≠ .filling → ¬beyond → closed → refused .frozen)
        ∧ (r.phase ≠ .filling → ¬beyond → ¬closed → exec .regionState before = .next
          (((s.takeCommand rest).setRegion i (some { r with phase := target })).answer c .done .empty)))))
  ∧ (∀ (before : State) (c : Command) (rest : List Command),
    let s := before.settleBefore .command
    s.AtHead 5 c rest →
    (argIndex c.block = none ∨ 1 < argNat c.block 5 1 →
      exec .regionQuery before = .next (s.answerRefused c rest .badArgument))
    ∧ (∀ i, argIndex c.block = some i →
      (argNat c.block 5 1 = 0 ∨ (argNat c.block 5 1 = 1 ∧ s.region i = none) →
        exec .regionQuery before = .next ((s.takeCommand rest).answer c .done (.region (s.region i))))
      ∧ (∀ r, argNat c.block 5 1 = 1 → s.region i = some r → exec .regionQuery before = .next
        (((s.takeCommand rest).setRegion i
          (some { r with stats := { corrected := 0, uncorrectable := 0, void := 0, refused := 0 } })).answer c .done
          (.region (some r))))))

/-- REGION_REMOVE makes its checks in order, has history and repair queue forget the region's lines, and empties the entry. -/
def Obligations.RegionRemoveEmptiesTheEntry : Prop :=
  ∀ (before : State) (c : Command) (rest : List Command),
    let s := before.settleBefore .command
    s.AtHead 4 c rest →
    let refused (why : RefusedReason) : Prop := exec .regionRemove before = .next (s.answerRefused c rest why)
    (argIndex c.block = none → refused .badArgument)
    ∧ (∀ i, argIndex c.block = some i →
      (s.region i = none → refused .state)
      ∧ (∀ r, s.region i = some r →
        let held : Prop := ∃ j e, s.entry j = some e ∧ e.region = some i
        let closed : Prop := s.management.frozen = true ∧ r.fixed = true
        (r.phase ≠ .offline → refused .state)
        ∧ (r.phase = .offline → held → refused .busy)
        ∧ (r.phase = .offline → ¬held → closed → refused .frozen)
        ∧ (r.phase = .offline → ¬held → ¬closed →
          ∃ u : State, exec .regionRemove before = .next (u.answer c .done .empty)
            ∧ u.region i = none ∧ (∀ j, j ≠ i → u.region j = s.region j)
            ∧ (∀ j, u.slot j = (s.slot j).filter fun e => decide (e.region ≠ i))
            ∧ u.patrol = { s.patrol with repairQueue := s.patrol.repairQueue.filter fun l => !r.contains l }
            ∧ u.port = (s.takeCommand rest).port ∧ u.tracker = s.tracker ∧ u.memory = s.memory
            ∧ u.retirement = s.retirement ∧ u.events = s.events ∧ u.management = s.management
            ∧ u.pending = s.pending)))

/-- PATROL_SET takes its enable and period and restarts the slot timer. -/
def Obligations.PatrolSetTakesItsSettings : Prop :=
  (∀ (before : State) (c : Command) (rest : List Command),
    let s := before.settleBefore .command
    s.AtHead 6 c rest →
    let period := argNat c.block 12 4
    let refused (why : RefusedReason) : Prop := exec .patrolSet before = .next (s.answerRefused c rest why)
    let good : Prop := argNat c.block 4 1 ≤ 1 ∧ 10 ≤ period ∧ period ≤ 100000
    (¬good → refused .badArgument)
    ∧ (good → s.management.frozen = true → refused .frozen)
    ∧ (good → s.management.frozen = false → exec .patrolSet before = .next
      (State.answer c .done (.patrol (decide (argNat c.block 4 1 = 1)) period)
        { s.takeCommand rest with patrol :=
            { s.patrol with
              scanEnabled := decide (argNat c.block 4 1 = 1), slotPeriod := period, slotStart := s.events.time } })))
  ∧ (∀ s : State, s.slotDue = true ↔ s.patrol.slotPeriod ≤ (s.events.time - s.patrol.slotStart).toNat)

/-- FILL_START makes its checks in order, sets the region FILLING and the engine ISSUING at its base, and issues what it may
before the response; FILL_STOP stops an ISSUING fill, which ends at once if nothing is outstanding. -/
def Obligations.FillsStartAndStop : Prop :=
  (∀ (before : State) (c : Command) (rest : List Command),
    let s := before.settleBefore .command
    s.AtHead 7 c rest →
    let refused (why : RefusedReason) : Prop := exec .fillStart before = .next (s.answerRefused c rest why)
    (argIndex c.block = none → refused .badArgument)
    ∧ (∀ i, argIndex c.block = some i →
      (s.region i = none → refused .state)
      ∧ (∀ r, s.region i = some r →
        let held : Prop := ∃ j e, s.entry j = some e ∧ e.region = some i
        let busy : Prop := held ∨ s.patrol.fill ≠ none
        let beyond : Prop := ∀ n, s.memory.capacity = some n → n ≤ r.limit.toNat
        let closed : Prop := s.management.frozen = true ∧ r.fixed = true
        (r.phase ≠ .offline → refused .state)
        ∧ (r.phase = .offline →
          (busy → refused .busy)
          ∧ (¬busy → s.memory.link = .down → refused .linkDown)
          ∧ (¬busy → s.memory.link = .up → beyond → refused .badArgument)
          ∧ (¬busy → s.memory.link = .up → ¬beyond → closed → refused .frozen)
          ∧ (¬busy → s.memory.link = .up → ¬beyond → ¬closed →
            let engine : Fill :=
              { phase := .issuing, region := i, cursor := some r.base, watermark := some r.base, outstanding := []
                unwritten := [], failed := none }
            let begun : State :=
              { (s.takeCommand rest).setRegion i (some { r with phase := .filling }) with patrol :=
                  { s.patrol with fill := some engine } }
            exec .fillStart before = .next (begun.fillIssue.answer c .started (.fill i (some r.base))))))))
  ∧ (∀ (before : State) (c : Command) (rest : List Command),
    let s := before.settleBefore .command
    s.AtHead 8 c rest →
    ((∀ f, s.patrol.fill = some f → f.phase ≠ .issuing) →
      exec .fillStop before = .next (s.answerRefused c rest .state))
    ∧ (∀ f, s.patrol.fill = some f → f.phase = .issuing →
      (f.outstanding ≠ [] → exec .fillStop before = .next
        (State.answer c .started (.fill f.region f.watermark)
          { s.takeCommand rest with patrol := { s.patrol with fill := some { f with phase := .stopping } } }))
      ∧ (∀ r w, f.outstanding = [] → f.watermark = some w → s.region f.region = some r → exec .fillStop before = .next
        ((({ (s.takeCommand rest).setRegion f.region (some { r with phase := .offline }) with patrol :=
            { s.patrol with fill := none } } : State).raise
          { kind := .fillStopped, region := some f.region, line := some w, reason := some .partialFill }).answer c
          .started (.fill f.region (some w))))))

/-- HISTORY_QUERY answers up to eight occupied slots from its start in ascending order; HISTORY_CLEAR deletes one line's
entry, or every one, that is not QUEUED. -/
def Obligations.HistoryIsQueriedAndCleared : Prop :=
  (∀ (before : State) (c : Command) (rest : List Command),
    let s := before.settleBefore .command
    s.AtHead 9 c rest →
    let start := argNat c.block 4 2
    let occupied (n : Nat) : List (Nat × HistoryEntry) := (List.finRange 128).filterMap fun i =>
      if n ≤ i.val then (s.slot i).map fun e => (i.val, e) else none
    (127 < start → exec .historyQuery before = .next (s.answerRefused c rest .badArgument))
    ∧ (start ≤ 127 → ∃ next : Option Nat, exec .historyQuery before = .next
        ((s.takeCommand rest).answer c .done (.history (occupied 0).length next ((occupied start).take 8)))
      ∧ ((occupied start).length ≤ 8 → next = none)
      ∧ (∀ x, 8 < (occupied start).length → (occupied start)[7]? = some x → next = some (x.1 + 1))))
  ∧ (∀ (before : State) (c : Command) (rest : List Command),
    let s := before.settleBefore .command
    s.AtHead 10 c rest → s.HistorySound →
    let l := argLine c.block 12
    let refused (why : RefusedReason) : Prop := exec .historyClear before = .next (s.answerRefused c rest why)
    let keeps (p : HistoryEntry → Bool) : State :=
      { s.takeCommand rest with history := s.history.map fun x => x.filter p }
    let number (p : HistoryEntry → Bool) : Nat := (List.finRange 128).countP fun i => (s.slot i).any p
    (argNat c.block 4 1 ≠ 1 → argNat c.block 4 1 ≠ 2 → refused .badArgument)
    ∧ (argNat c.block 4 1 = 1 →
      ((∀ i e, s.slot i = some e → e.line ≠ l) → refused .notFound)
      ∧ (∀ i e, s.slot i = some e → e.line = l →
        (e.retire = .queued → refused .busy)
        ∧ (e.retire ≠ .queued → exec .historyClear before = .next
          ((keeps fun x => decide (x.line ≠ l)).answer c .done .empty))))
    ∧ (argNat c.block 4 1 = 2 → exec .historyClear before = .next
      ((keeps fun x => decide (x.retire = .queued)).answer c .done
        (.cleared (number fun x => decide (x.retire ≠ .queued)) (number fun x => decide (x.retire = .queued))))))

/-- SPARE_SET makes its checks in order and defines the spare area anew, every spare FREE; SPARE_MARK makes a FREE spare
DEFECTIVE; SPARE_QUERY answers the area, the flag and the numbers in each state. -/
def Obligations.SparesAreSetMarkedAndQueried : Prop :=
  (∀ (before : State) (c : Command) (rest : List Command),
    let s := before.settleBefore .command
    s.AtHead 11 c rest →
    let base := argLine c.block 12
    let count := argNat c.block 16 2
    let refused (why : RefusedReason) : Prop := exec .spareSet before = .next (s.answerRefused c rest why)
    (count = 0 ∨ 256 < count → refused .badArgument)
    ∧ (1 ≤ count → count ≤ 256 →
      (s.memory.capacity = none → refused .linkDown)
      ∧ (∀ n, s.memory.capacity = some n →
        let busy : Prop := s.retirement.map ≠ [] ∨ s.retirement.queue ≠ [] ∨ ∃ j e, s.entry j = some e ∧ e.origin = .copy
        let overlap : Prop := ∃ j x, s.region j = some x ∧ x.base.toNat < base.toNat + count ∧ base.toNat ≤ x.limit.toNat
        (n < base.toNat + count → refused .badArgument)
        ∧ (base.toNat + count ≤ n →
          (busy → refused .busy)
          ∧ (¬busy → overlap → refused .overlap)
          ∧ (¬busy → ¬overlap → s.management.frozen = true → refused .frozen)
          ∧ (¬busy → ¬overlap → s.management.frozen = false → exec .spareSet before = .next
            (State.answer c .done (.spareArea base count)
              { s.takeCommand rest with retirement :=
                  { s.retirement with
                    area := some { base := base, spares := List.replicate count .free }, unavailable := false } }))))))
  ∧ (∀ (before : State) (c : Command) (rest : List Command),
    let s := before.settleBefore .command
    s.AtHead 12 c rest →
    let i := argNat c.block 4 2
    let refused (why : RefusedReason) : Prop := exec .spareMark before = .next (s.answerRefused c rest why)
    (s.retirement.area = none → refused .state)
    ∧ (∀ a, s.retirement.area = some a →
      (a.spares.length ≤ i → refused .badArgument)
      ∧ (∀ x, a.spares[i]? = some x →
        (x ≠ .free → refused .state)
        ∧ (x = .free → exec .spareMark before = .next
          (State.answer c .done .empty
            { s.takeCommand rest with retirement :=
                { s.retirement with area := some { a with spares := a.spares.set i .defective } } })))))
  ∧ (∀ (before : State) (c : Command) (rest : List Command),
    let s := before.settleBefore .command
    s.AtHead 13 c rest →
    (s.retirement.area = none → exec .spareQuery before = .next
      ((s.takeCommand rest).answer c .done
        (.spare { area := none, unavailable := false
                  counts := { free := 0, reserved := 0, inUse := 0, defective := 0 } })))
    ∧ (∀ a, s.retirement.area = some a → exec .spareQuery before = .next
      ((s.takeCommand rest).answer c .done
        (.spare
          { area := some (a.base, a.spares.length), unavailable := s.retirement.unavailable
            counts :=
              { free := a.spares.count .free, reserved := a.spares.count .reserved, inUse := a.spares.count .inUse
                defective := a.spares.count .defective } }))))

/-- RETIRE_LINE makes the checks of R140 in order, reserves the lowest FREE spare and queues the line with its manager tag. -/
def Obligations.RetireLineReservesTheLowestFreeSpare : Prop :=
  ∀ (before : State) (c : Command) (rest : List Command),
    let s := before.settleBefore .command
    s.AtHead 14 c rest →
    let l := argLine c.block 12
    let refused (why : RefusedReason) : Prop := exec .retireLine before = .next (s.answerRefused c rest why)
    (s.retirement.area = none → refused .state)
    ∧ (∀ a, s.retirement.area = some a →
      let beyond : Prop := ∀ n, s.memory.capacity = some n → n ≤ l.toNat
      let inArea : Prop := a.base.toNat ≤ l.toNat ∧ l.toNat < a.base.toNat + a.spares.length
      let pending : Prop := (∃ q ∈ s.retirement.queue, q.line = l) ∨ ∃ j, s.retirement.copy = some j ∧ j.line = l
      (beyond ∨ inArea → refused .badArgument)
      ∧ (¬beyond → ¬inArea →
        (pending ∨ 8 ≤ s.retirement.queue.length → refused .busy)
        ∧ (¬pending → s.retirement.queue.length < 8 →
          ((.free ∉ a.spares) ∨ s.retirement.unavailable = true → refused .noSpare)
          ∧ (∀ i, s.retirement.unavailable = false → a.spares[i]? = some .free →
            (∀ j, j < i → a.spares[j]? ≠ some .free) → exec .retireLine before = .next
              (State.answer c .started (.retirement l i)
                { s.takeCommand rest with retirement :=
                    { s.retirement with
                      area := some { a with spares := a.spares.set i .reserved }
                      queue := s.retirement.queue ++
                        [{ line := l, origin := .manual { manager := c.requester, tag := c.tag }, spare := i }] } })))))

/-- RETIRE_CANCEL takes a queued line out, frees its spare and tells the history table of an AUTO one; RETIRE_LOAD makes its
checks in order and installs an ACTIVE map entry; RETIRE_QUERY answers up to eight entries of the map. -/
def Obligations.RetirementsAreCancelledLoadedAndQueried : Prop :=
  (∀ (before : State) (c : Command) (rest : List Command),
    let s := before.settleBefore .command
    s.AtHead 15 c rest →
    let l := argLine c.block 12
    let refused (why : RefusedReason) : Prop := exec .retireCancel before = .next (s.answerRefused c rest why)
    (s.retirement.area = none → refused .state)
    ∧ (∀ a, s.retirement.area = some a → s.retirement.Sound →
      (∀ q ∈ s.retirement.queue, q.line = l →
        ∃ u : State, exec .retireCancel before = .next (u.answer c .done (.retirement l q.spare))
          ∧ u.retirement =
              { s.retirement with
                area := some { a with spares := a.spares.set q.spare .free }
                queue := s.retirement.queue.filter fun x => x.line ≠ l }
          ∧ (∀ j, u.slot j = (s.slot j).map fun x =>
              if q.origin = .auto ∧ x.line = l ∧ x.retire = .queued then { x with retire := .none } else x)
          ∧ u.port = (s.takeCommand rest).port ∧ u.regions = s.regions ∧ u.tracker = s.tracker ∧ u.memory = s.memory
          ∧ u.patrol = s.patrol ∧ u.events = s.events ∧ u.management = s.management ∧ u.pending = s.pending)
      ∧ ((∀ q ∈ s.retirement.queue, q.line ≠ l) →
        ((∃ j, s.retirement.copy = some j ∧ j.line = l) → refused .busy)
        ∧ ((∀ j, s.retirement.copy = some j → j.line ≠ l) → refused .notFound))))
  ∧ (∀ (before : State) (c : Command) (rest : List Command),
    let s := before.settleBefore .command
    s.AtHead 16 c rest →
    let i := argNat c.block 4 2
    let l := argLine c.block 12
    let refused (why : RefusedReason) : Prop := exec .retireLoad before = .next (s.answerRefused c rest why)
    (s.retirement.area = none → refused .state)
    ∧ (∀ a, s.retirement.area = some a →
      let bad : Prop := a.spares.length ≤ i ∨ (∀ n, s.memory.capacity = some n → n ≤ l.toNat)
        ∨ (a.base.toNat ≤ l.toNat ∧ l.toNat < a.base.toNat + a.spares.length)
      let busy : Prop := (∃ m ∈ s.retirement.map, m.line = l) ∨ (∃ q ∈ s.retirement.queue, q.line = l)
        ∨ ∃ j, s.retirement.copy = some j ∧ j.line = l
      (bad → refused .badArgument)
      ∧ (¬bad → busy → refused .busy)
      ∧ (¬bad → ¬busy → a.spares[i]? ≠ some .free ∨ s.retirement.unavailable = true → refused .state)
      ∧ (¬bad → ¬busy → a.spares[i]? = some .free → s.retirement.unavailable = false →
        exec .retireLoad before = .next
          (State.answer c .done .empty
            { s.takeCommand rest with retirement :=
                { s.retirement with
                  area := some { a with spares := a.spares.set i .inUse }
                  map := insertMap
                    { line := l, spare := i, state := .active, pending := none, auto := false, void := false
                      time := some s.events.time } s.retirement.map } }))))
  ∧ (∀ (before : State) (c : Command) (rest : List Command),
    let s := before.settleBefore .command
    s.AtHead 17 c rest →
    let start := argNat c.block 4 2
    let refused (why : RefusedReason) : Prop := exec .retireQuery before = .next (s.answerRefused c rest why)
    (s.retirement.area = none → refused .state)
    ∧ (s.retirement.area ≠ none →
      (255 < start → refused .badArgument)
      ∧ (start ≤ 255 → ∃ es : List (Nat × MapEntry), exec .retireQuery before = .next
          ((s.takeCommand rest).answer c .done
            (.retireMap s.retirement.map.length
              (if s.retirement.map.length ≤ start + 8 then none else some (start + 8)) es))
        ∧ es.map (·.2) = (s.retirement.map.drop start).take 8
        ∧ ∀ n x, es[n]? = some x → x.1 = start + n)))

/-- TIMEOUT_SET takes a value of 100 to 1,000,000 unless frozen; outstanding operations keep their deadlines, and the value is
kept by a memory-link loss and a requester-link reset and is 20,000 after cold reset. -/
def Obligations.TimeoutSetTakesItsValue : Prop :=
  (∀ (before : State) (c : Command) (rest : List Command),
    let s := before.settleBefore .command
    s.AtHead 18 c rest →
    let v := argNat c.block 12 4
    (v < 100 ∨ 1000000 < v → exec .timeoutSet before = .next (s.answerRefused c rest .badArgument))
    ∧ (100 ≤ v → v ≤ 1000000 →
      (s.management.frozen = true → exec .timeoutSet before = .next (s.answerRefused c rest .frozen))
      ∧ (s.management.frozen = false → exec .timeoutSet before = .next
        (State.answer c .done (.timeout v)
          { s.takeCommand rest with memory := { s.memory with mtimeout := v } }))))
  ∧ (∀ (i : Instr) (s t : State), s.quiet = true → (∀ p, i ≠ .coldReset p) → i ≠ .timeoutSet → exec i s = .next t →
    t.memory.mtimeout = s.memory.mtimeout)
  ∧ (∀ (s t : State) (r : IssueRecord), exec .issueGrant s = .next t → r ∈ t.memory.records →
    r ∈ s.memory.records ∨ (r.issued = s.events.time ∧ r.deadline = s.events.time + BitVec.ofNat 32 s.memory.mtimeout))
  ∧ (∀ (p : Straps) (s t : State), exec (.coldReset p) s = .next t → t.memory.mtimeout = 20000)

/-- EVENT_GRANT adds 1 to 32 credits, cut at 32, and answers the credits held. -/
def Obligations.EventGrantAddsCredits : Prop :=
  ∀ (before : State) (c : Command) (rest : List Command),
    let s := before.settleBefore .command
    s.AtHead 19 c rest →
    let n := argNat c.block 4 1
    (n = 0 ∨ 32 < n → exec .eventGrant before = .next (s.answerRefused c rest .badArgument))
    ∧ (1 ≤ n → n ≤ 32 → exec .eventGrant before = .next
      (State.answer c .done (.credits (min (s.events.credits + n) 32))
        { s.takeCommand rest with events := { s.events with credits := min (s.events.credits + n) 32 } }))

/-- MANAGER_SET changes the manager unless frozen, takes the event credits away and raises MANAGER_CHANGED with the
new number and the old; FREEZE freezes; DEVICE_QUERY answers what the bridge holds. -/
def Obligations.ManagerFreezeAndDeviceCommands : Prop :=
  (∀ (before : State) (c : Command) (rest : List Command),
    let s := before.settleBefore .command
    s.AtHead 20 c rest →
    let n := argNat c.block 4 1
    (15 < n → exec .managerSet before = .next (s.answerRefused c rest .badArgument))
    ∧ (n ≤ 15 → s.management.frozen = true → exec .managerSet before = .next (s.answerRefused c rest .frozen))
    ∧ (∀ m : Fin 16, n = m.val → s.management.frozen = false → ∃ tag : Byte, exec .managerSet before = .next
      (State.answer c .done (.manager m)
        { s.takeCommand rest with
          management := { s.management with manager := m }
          events := { s.events with credits := 0 }.push
            { kind := .managerChanged, requester := some (BitVec.ofNat 8 m.val, tag)
              count := some s.management.manager.val } })))
  ∧ (∀ (before : State) (c : Command) (rest : List Command),
    let s := before.settleBefore .command
    s.AtHead 21 c rest →
    exec .freeze before = .next
      (State.answer c .done .empty
        { s.takeCommand rest with management := { s.management with frozen := true } }))
  ∧ (∀ (before : State) (c : Command) (rest : List Command),
    let s := before.settleBefore .command
    s.AtHead 22 c rest →
    exec .deviceQuery before = .next
      ((s.takeCommand rest).answer c .done
        (.device
          { requesterLink := s.port.link, memoryLink := s.memory.link, capacity := s.memory.capacity
            announced := s.memory.announced, inUse := s.memory.records.length
            requesterPool := s.occupancy .requester, patrolPool := s.occupancy .patrol, copyPool := s.occupancy .copy
            expired := (List.finRange 64).countP fun i => (s.entry i).any fun e => decide (e.phase = .expired)
            frozen := s.management.frozen, manager := s.management.manager
            spareDefined := s.retirement.area.isSome, counts := s.retirement.counts
            retireQueue := s.retirement.queue.length, repairQueue := s.patrol.repairQueue.length
            eventQueue := s.events.queue.length, time := s.events.time })))

/-- The bridge after cold reset, at any straps, is in order in every block. -/
def Obligations.ResetStateIsInOrder : Prop :=
  ∀ (p : Straps) (s t : State), exec (.coldReset p) s = .next t →
    t.events.Sound ∧ t.port.Sound ∧ t.memory.Sound ∧ t.RepairsSound ∧ t.RegionsSound ∧ t.FillSound ∧ t.HistorySound
      ∧ t.RetirementSound ∧ t.TrackerSound

/-- A raised event joins the queue with the next sequence number while it holds fewer than 32 records, and is else
discarded and counted. Every step keeps the law of R154: at most 32 records, at most 32 credits, a lost count above 0 only
while the queue is full, and sequence numbers without a gap. -/
def Obligations.EventUnitStaysInOrder : Prop :=
  (∀ (n : Notice) (u : EventUnit),
    (u.queue.length < 32 → u.push n =
      { u with queue := u.queue ++ [{ seq := u.nextSeq, time := u.time, notice := n }], nextSeq := u.nextSeq + 1 })
    ∧ (32 ≤ u.queue.length → u.push n = { u with lost := if u.lost < 65535 then u.lost + 1 else 65535 }))
  ∧ KeptByStep fun s => s.events.Sound

/-- Neither ingress queue with its owed credits ever exceeds the partner's grant, memory operations outstanding never exceed
the credits announced, a port that is DOWN holds nothing, and MTIMEOUT stays in its range: every step keeps it. -/
def Obligations.PortsStayInOrder : Prop := KeptByStep fun s => s.port.Sound ∧ s.memory.Sound

/-- No two regions overlap, none overlaps the spare area, and each keeps its bounds, burst, threshold and cursor in range; a
region is FILLING exactly if it is the active fill's, and no fill is active while the memory link is DOWN: every step
keeps it. -/
def Obligations.RegionsAndFillStayInOrder : Prop := KeptByStep fun s => s.RegionsSound ∧ s.FillSound

/-- The history table never holds two entries for a line, each count is 1 to 15, and each line lies in the region whose
index its entry carries; the repair queue holds at most 8 lines and none twice; the retire queue holds at most 8 and no
line twice or also being copied; the map stays in ascending order, with at most 256 entries and no line of the spare area;
each RESERVED spare is promised to one queue entry or to the copy, and each IN_USE spare is that of one map entry that is
ACTIVE or COPYING for a re-retire: every step keeps it, with the tracker's law. -/
def Obligations.HistoryAndQueuesStayInOrder : Prop :=
  KeptByStep fun s => s.HistorySound ∧ s.RepairsSound ∧ s.RetirementSound ∧ s.TrackerSound

/-- The pools keep their ceilings, line orders, waiting order and issue records hold the entries of their phases and no
others, an entry past WAITING_LINE is the head of its line order and so the one owner of its line, entries that join the
waiting order at one event stand in it in ascending order of index, and the tracker is empty while the memory link is DOWN:
every step keeps it. -/
def Obligations.TrackerStaysInOrder : Prop := KeptByStep fun s => s.TrackerSound

/-- While the bridge is frozen, no step but a cold reset unfreezes it or changes the manager, MTIMEOUT, the scan's settings,
the bounds of the spare area, or the definition of a fixed region. -/
def Obligations.FrozenBridgeKeepsItsConfiguration : Prop :=
  ∀ s t : State, s.management.frozen = true → step s = .next t →
    (∀ p rest, s.pending ≠ .coldReset p :: rest) →
    t.management = s.management ∧ t.memory.mtimeout = s.memory.mtimeout
    ∧ t.patrol.scanEnabled = s.patrol.scanEnabled ∧ t.patrol.slotPeriod = s.patrol.slotPeriod
    ∧ t.retirement.area.map (fun a => (a.base, a.spares.length))
      = s.retirement.area.map (fun a => (a.base, a.spares.length))
    ∧ ∀ i r, s.region i = some r → r.fixed = true → ∃ q, t.region i = some q
      ∧ q.base = r.base ∧ q.limit = r.limit ∧ q.rights = r.rights ∧ q.mode = r.mode ∧ q.patrol = r.patrol
      ∧ q.burst = r.burst ∧ q.threshold = r.threshold ∧ q.reportCorrections = r.reportCorrections
      ∧ q.reportPasses = r.reportPasses ∧ q.fixed = true
end

