-- ==== Sys2Proof/Laws/Coder.lean ====
section
/-! SUPPORT. What the laws of the code (R26) give about stored lines, whatever the code: how far apart they are, which are
valid, and what the search for a correction finds. -/

namespace Sys2Proof.Machine

/-! ### Distance -/

/-- Lines that agree outside a set of symbols are no further apart than its size. -/
theorem symbolDistance_le {a b : StoredLine} (S : Finset (Fin 72))
    (h : ∀ q : Fin 72, q ∉ S → a[q.val] = b[q.val]) : symbolDistance a b ≤ S.card := by
  refine Finset.card_le_card fun i hi => ?_
  by_contra hn
  exact (Finset.mem_filter.mp hi).2 (h i hn)

theorem symbolDistance_self (a : StoredLine) : symbolDistance a a = 0 :=
  Nat.le_zero.mp (symbolDistance_le ∅ fun _ _ => rfl)

theorem symbolDistance_comm (a b : StoredLine) : symbolDistance a b = symbolDistance b a := by
  unfold symbolDistance
  congr 1
  ext i
  simp [ne_comm]

theorem symbolDistance_triangle (a b d : StoredLine) :
    symbolDistance a d ≤ symbolDistance a b + symbolDistance b d := by
  unfold symbolDistance
  refine le_trans (Finset.card_le_card fun i hi => ?_) (Finset.card_union_le _ _)
  simp only [Finset.mem_filter, Finset.mem_union, Finset.mem_univ, true_and] at *
  by_contra hn
  push Not at hn
  exact hi (hn.1.trans hn.2)

/-- One damaged symbol moves a line by at most one. -/
theorem symbolDistance_set_le (a : StoredLine) (p : Fin 72) (v : Byte) : symbolDistance a (a.set p.val v) ≤ 1 := by
  refine (symbolDistance_le (a := a) (b := a.set p.val v) {p} fun r hr => ?_).trans (by simp)
  rw [Vector.getElem_set, if_neg]
  intro e
  exact hr (by simpa using Fin.ext e.symm)

/-! ### Valid lines and the void form -/

@[simp] theorem dataOf_encodeLine (d : Data) : dataOf (encodeLine d) = d := by
  ext i hi
  simp [dataOf, encodeLine, Config.assemble_data _ _ _ hi]

theorem isValid_iff (l : StoredLine) : isValid l = true ↔ ∃ d, l = encodeLine d := by
  simp only [isValid, decide_eq_true_eq]
  constructor
  · intro h
    exact ⟨_, h⟩
  · rintro ⟨d, rfl⟩
    rw [dataOf_encodeLine]

/-- R26, item 1: two valid lines that agree outside fewer than four symbols are one line. -/
theorem encodeLine_far {a b : Data} (S : Finset (Fin 72)) (hS : S.card < 4)
    (h : ∀ q : Fin 72, q ∉ S → (encodeLine a)[q.val] = (encodeLine b)[q.val]) : a = b := by
  by_contra hn
  have far := Config.checkBytes_lawful.valid_far a b hn
  have near := symbolDistance_le S h
  simp only [encodeLine] at near
  omega

/-- R26, item 2: no valid line agrees with the void form outside fewer than four symbols. -/
theorem voidForm_far {a : Data} (S : Finset (Fin 72)) (hS : S.card < 4)
    (h : ∀ q : Fin 72, q ∉ S → voidForm[q.val] = (encodeLine a)[q.val]) : False := by
  have far := Config.checkBytes_lawful.void_far a
  have near := symbolDistance_le S h
  simp only [encodeLine, voidForm] at near
  omega

theorem isValid_voidForm : isValid voidForm = false := by
  rw [← Bool.not_eq_true, isValid_iff]
  rintro ⟨d, h⟩
  exact voidForm_far (a := d) ∅ (by simp) fun q _ => by rw [h]

/-! ### The search for a correction -/

/-- The line differs from a valid line in exactly one symbol (R28, condition 3). -/
def OneOff (l : StoredLine) (p : Fin 72) (d : Data) : Prop :=
  l[p.val] ≠ (encodeLine d)[p.val] ∧ ∀ q : Fin 72, q ≠ p → l[q.val] = (encodeLine d)[q.val]

theorem OneOff.unique {l : StoredLine} {p q : Fin 72} {d e : Data} (h : OneOff l p d) (k : OneOff l q e) :
    p = q ∧ d = e := by
  have hde : d = e := encodeLine_far {p, q} (by have := Finset.card_le_two (a := p) (b := q); omega) fun r hr => by
    simp only [Finset.mem_insert, Finset.mem_singleton, not_or] at hr
    rw [← h.2 r hr.1, ← k.2 r hr.2]
  subst hde
  refine ⟨?_, rfl⟩
  by_contra hn
  exact h.1 (k.2 p hn)

/-- A damaged symbol of a valid line leaves it one off. -/
theorem OneOff.of_set (d : Data) (p : Fin 72) (v : Byte) (h : v ≠ (encodeLine d)[p.val]) :
    OneOff ((encodeLine d).set p.val v) p d := by
  refine ⟨by simpa using h, fun q hq => ?_⟩
  rw [Vector.getElem_set, if_neg]
  intro e
  exact hq (Fin.ext e.symm)

theorem OneOff.not_valid {l : StoredLine} {p : Fin 72} {d : Data} (h : OneOff l p d) : isValid l = false := by
  rw [← Bool.not_eq_true, isValid_iff]
  rintro ⟨e, rfl⟩
  have hde : e = d := encodeLine_far {p} (by simp) fun q hq => h.2 q (by simpa using hq)
  exact h.1 (by rw [hde])

theorem OneOff.not_void {l : StoredLine} {p : Fin 72} {d : Data} (h : OneOff l p d) : l ≠ voidForm := by
  rintro rfl
  exact voidForm_far {p} (by simp) fun q hq => h.2 q (by simpa using hq)

/-- The neighbours of a line are the lines with one symbol written over. -/
theorem mem_neighbours (l w : StoredLine) (p : Fin 72) : (p, w) ∈ neighbours l ↔ ∃ v : Byte, w = l.set p.val v := by
  unfold neighbours
  rw [List.mem_flatMap]
  constructor
  · rintro ⟨q, _, h⟩
    obtain ⟨v, _, h⟩ := List.mem_map.1 h
    obtain ⟨rfl, rfl⟩ := Prod.mk.inj h
    exact ⟨_, rfl⟩
  · rintro ⟨v, rfl⟩
    refine ⟨p, List.mem_finRange p, List.mem_map.2 ⟨v.toFin, List.mem_finRange _, ?_⟩⟩
    rw [show BitVec.ofFin v.toFin = v from rfl]

/-- A valid neighbour of a line that is not valid itself is the valid line it is one off. -/
theorem oneOff_of_neighbour {l : StoredLine} (hl : isValid l = false) {p : Fin 72} {v : Byte} {d : Data}
    (h : l.set p.val v = encodeLine d) : OneOff l p d := by
  have agree : ∀ q : Fin 72, q ≠ p → l[q.val] = (encodeLine d)[q.val] := by
    intro q hq
    rw [← h, Vector.getElem_set, if_neg]
    intro e
    exact hq (Fin.ext e.symm)
  refine ⟨fun e => ?_, agree⟩
  have : isValid l = true := (isValid_iff l).2 ⟨d, by
    ext i hi
    by_cases hip : (⟨i, hi⟩ : Fin 72) = p
    · subst hip
      rw [e]
    · rw [agree ⟨i, hi⟩ hip]⟩
  simp [this] at hl

/-- A line one off a valid line is a neighbour of it. -/
theorem OneOff.neighbour {l : StoredLine} {p : Fin 72} {d : Data} (h : OneOff l p d) :
    (p, encodeLine d) ∈ neighbours l := by
  refine (mem_neighbours _ _ _).2 ⟨(encodeLine d)[p.val], ?_⟩
  ext i hi
  rw [Vector.getElem_set]
  split
  · rename_i e
    simp [← e]
  · rename_i e
    rw [h.2 ⟨i, hi⟩ fun hip => e (by rw [← hip])]

theorem findCorrection_of_oneOff {l : StoredLine} {p : Fin 72} {d : Data} (h : OneOff l p d) :
    findCorrection l = some (p, encodeLine d) := by
  unfold findCorrection
  have hn := h.neighbour
  have hmem := fun w q => (mem_neighbours l w q).1
  generalize neighbours l = ns at hn hmem
  cases hf : ns.find? fun x => isValid x.2 with
  | none =>
    rw [List.find?_eq_none] at hf
    have valid := (isValid_iff (encodeLine d)).2 ⟨d, rfl⟩
    exact absurd valid (by simpa using hf (p, encodeLine d) hn)
  | some x =>
    obtain ⟨q, w⟩ := x
    have hv := List.find?_some hf
    obtain ⟨v, rfl⟩ := hmem _ _ (List.mem_of_find?_eq_some hf)
    rw [isValid_iff] at hv
    obtain ⟨e, he⟩ := hv
    simp only at he
    obtain ⟨rfl, rfl⟩ := h.unique (oneOff_of_neighbour h.not_valid he)
    rw [he]

theorem findCorrection_of_none {l : StoredLine} (hl : isValid l = false) (h : ∀ p d, ¬OneOff l p d) :
    findCorrection l = none := by
  unfold findCorrection
  rw [List.find?_eq_none]
  rintro ⟨q, w⟩ hm hw
  rw [mem_neighbours] at hm
  obtain ⟨v, rfl⟩ := hm
  rw [isValid_iff] at hw
  obtain ⟨e, he⟩ := hw
  exact h q e (oneOff_of_neighbour hl he)

/-- A line at distance two or more from every valid line is neither valid nor one off. -/
theorem not_oneOff_of_far {l : StoredLine} (h : ∀ d, 2 ≤ symbolDistance l (encodeLine d)) :
    isValid l = false ∧ ∀ p d, ¬OneOff l p d := by
  constructor
  · rw [← Bool.not_eq_true, isValid_iff]
    rintro ⟨d, rfl⟩
    have := h d
    rw [symbolDistance_self] at this
    omega
  · intro p d k
    have := h d
    have near := symbolDistance_le {p} fun r hr => k.2 r (by simpa using hr)
    simp only [Finset.card_singleton] at near
    omega

end Sys2Proof.Machine
end

