-- ==== Sys2Proof/Laws/State.lean ====
section
/-! SUPPORT. What each shared operation over the state leaves alone, field by field, and what it writes. An operation's
frame names every field it does not touch. -/

namespace Sys2Proof.Machine

/-- A fold of operations that keep a part of the state keeps it. -/
theorem foldl_frame {α β : Type} (f : State → β → State) (π : State → α) (h : ∀ s x, π (f s x) = π s)
    (l : List β) (s : State) : π (l.foldl f s) = π s := by
  induction l generalizing s with
  | nil => rfl
  | cons x xs ih => exact (ih _).trans (h s x)

@[simp] theorem State.raise_frame (n : Notice) (s : State) :
    (s.raise n).port = s.port ∧ (s.raise n).regions = s.regions ∧ (s.raise n).tracker = s.tracker ∧
      (s.raise n).memory = s.memory ∧ (s.raise n).patrol = s.patrol ∧ (s.raise n).history = s.history ∧
      (s.raise n).retirement = s.retirement ∧ (s.raise n).management = s.management ∧
      (s.raise n).pending = s.pending :=
  ⟨rfl, rfl, rfl, rfl, rfl, rfl, rfl, rfl, rfl⟩

@[simp] theorem State.raiseAll_frame (ns : List Notice) (s : State) :
    (s.raiseAll ns).port = s.port ∧ (s.raiseAll ns).regions = s.regions ∧ (s.raiseAll ns).tracker = s.tracker ∧
      (s.raiseAll ns).memory = s.memory ∧ (s.raiseAll ns).patrol = s.patrol ∧ (s.raiseAll ns).history = s.history ∧
      (s.raiseAll ns).retirement = s.retirement ∧ (s.raiseAll ns).management = s.management ∧
      (s.raiseAll ns).pending = s.pending := by
  refine ⟨foldl_frame _ (·.port) (by simp) ns s, foldl_frame _ (·.regions) (by simp) ns s,
    foldl_frame _ (·.tracker) (by simp) ns s, foldl_frame _ (·.memory) (by simp) ns s,
    foldl_frame _ (·.patrol) (by simp) ns s, foldl_frame _ (·.history) (by simp) ns s,
    foldl_frame _ (·.retirement) (by simp) ns s, foldl_frame _ (·.management) (by simp) ns s,
    foldl_frame _ (·.pending) (by simp) ns s⟩

@[simp] theorem State.hand_frame (p : OutPacket) (s : State) :
    (s.hand p).regions = s.regions ∧ (s.hand p).tracker = s.tracker ∧ (s.hand p).memory = s.memory ∧
      (s.hand p).patrol = s.patrol ∧ (s.hand p).history = s.history ∧ (s.hand p).retirement = s.retirement ∧
      (s.hand p).events = s.events ∧ (s.hand p).management = s.management ∧ (s.hand p).pending = s.pending := by
  unfold State.hand; (repeat' split) <;> simp

/-- A packet handed changes the transmit order alone. -/
@[simp] theorem State.hand_port (p : OutPacket) (s : State) :
    (s.hand p).port.link = s.port.link ∧ (s.hand p).port.requests = s.port.requests ∧
      (s.hand p).port.commands = s.port.commands ∧ (s.hand p).port.requestOwed = s.port.requestOwed ∧
      (s.hand p).port.managementOwed = s.port.managementOwed ∧ (s.hand p).port.sent = s.port.sent := by
  unfold State.hand; (repeat' split) <;> simp

@[simp] theorem State.handCredit_frame (s : State) :
    (s.handCredit).regions = s.regions ∧ (s.handCredit).tracker = s.tracker ∧ (s.handCredit).memory = s.memory ∧
      (s.handCredit).patrol = s.patrol ∧ (s.handCredit).history = s.history ∧
      (s.handCredit).retirement = s.retirement ∧ (s.handCredit).events = s.events ∧
      (s.handCredit).management = s.management ∧ (s.handCredit).pending = s.pending := by
  unfold State.handCredit; (repeat' split) <;> simp

/-- A CREDIT that is handed changes the transmit order of the port alone. -/
@[simp] theorem State.handCredit_port (s : State) :
    s.handCredit.port.link = s.port.link ∧ s.handCredit.port.requests = s.port.requests ∧
      s.handCredit.port.commands = s.port.commands ∧ s.handCredit.port.requestOwed = s.port.requestOwed ∧
      s.handCredit.port.managementOwed = s.port.managementOwed ∧ s.handCredit.port.sent = s.port.sent := by
  unfold State.handCredit; (repeat' split) <;> simp

/-- An answer changes the transmit order of the port alone. -/
@[simp] theorem State.respond_port (r t : Byte) (k : Kind) (x : Status) (b : Bool) (d : Data) (s : State) :
    (s.respond r t k x b d).port.link = s.port.link ∧ (s.respond r t k x b d).port.requests = s.port.requests ∧
      (s.respond r t k x b d).port.commands = s.port.commands ∧
      (s.respond r t k x b d).port.requestOwed = s.port.requestOwed ∧
      (s.respond r t k x b d).port.managementOwed = s.port.managementOwed ∧
      (s.respond r t k x b d).port.sent = s.port.sent := by
  unfold State.respond; (repeat' split) <;> simp

@[simp] theorem State.respond_frame (r t : Byte) (k : Kind) (x : Status) (b : Bool) (d : Data) (s : State) :
    (s.respond r t k x b d).regions = s.regions ∧ (s.respond r t k x b d).tracker = s.tracker ∧
      (s.respond r t k x b d).memory = s.memory ∧ (s.respond r t k x b d).patrol = s.patrol ∧
      (s.respond r t k x b d).history = s.history ∧ (s.respond r t k x b d).retirement = s.retirement ∧
      (s.respond r t k x b d).events = s.events ∧ (s.respond r t k x b d).management = s.management ∧
      (s.respond r t k x b d).pending = s.pending := by
  unfold State.respond; (repeat' split) <;> simp

@[simp] theorem State.respondEntry_frame (t : Ticket) (x : Status) (b : Bool) (d : Data) (s : State) :
    (s.respondEntry t x b d).regions = s.regions ∧ (s.respondEntry t x b d).tracker = s.tracker ∧
      (s.respondEntry t x b d).memory = s.memory ∧ (s.respondEntry t x b d).patrol = s.patrol ∧
      (s.respondEntry t x b d).history = s.history ∧ (s.respondEntry t x b d).retirement = s.retirement ∧
      (s.respondEntry t x b d).events = s.events ∧ (s.respondEntry t x b d).management = s.management ∧
      (s.respondEntry t x b d).pending = s.pending := by
  unfold State.respondEntry; (repeat' split) <;> simp

@[simp] theorem State.setRegion_frame (i : Fin 32) (r : Option Region) (s : State) :
    (s.setRegion i r).port = s.port ∧ (s.setRegion i r).tracker = s.tracker ∧ (s.setRegion i r).memory = s.memory ∧
      (s.setRegion i r).patrol = s.patrol ∧ (s.setRegion i r).history = s.history ∧
      (s.setRegion i r).retirement = s.retirement ∧ (s.setRegion i r).events = s.events ∧
      (s.setRegion i r).management = s.management ∧ (s.setRegion i r).pending = s.pending :=
  ⟨rfl, rfl, rfl, rfl, rfl, rfl, rfl, rfl, rfl⟩

@[simp] theorem State.modifyRegion_frame (i : Fin 32) (f : Region → Region) (s : State) :
    (s.modifyRegion i f).port = s.port ∧ (s.modifyRegion i f).tracker = s.tracker ∧
      (s.modifyRegion i f).memory = s.memory ∧ (s.modifyRegion i f).patrol = s.patrol ∧
      (s.modifyRegion i f).history = s.history ∧ (s.modifyRegion i f).retirement = s.retirement ∧
      (s.modifyRegion i f).events = s.events ∧ (s.modifyRegion i f).management = s.management ∧
      (s.modifyRegion i f).pending = s.pending := by
  unfold State.modifyRegion; (repeat' split) <;> simp

@[simp] theorem State.setSpare_frame (i : Nat) (x : SpareState) (s : State) :
    (s.setSpare i x).port = s.port ∧ (s.setSpare i x).regions = s.regions ∧ (s.setSpare i x).tracker = s.tracker ∧
      (s.setSpare i x).memory = s.memory ∧ (s.setSpare i x).patrol = s.patrol ∧
      (s.setSpare i x).history = s.history ∧ (s.setSpare i x).events = s.events ∧
      (s.setSpare i x).management = s.management ∧ (s.setSpare i x).pending = s.pending := by
  unfold State.setSpare; (repeat' split) <;> simp

@[simp] theorem State.setMap_frame (ms : List MapEntry) (s : State) :
    (s.setMap ms).port = s.port ∧ (s.setMap ms).regions = s.regions ∧ (s.setMap ms).tracker = s.tracker ∧
      (s.setMap ms).memory = s.memory ∧ (s.setMap ms).patrol = s.patrol ∧ (s.setMap ms).history = s.history ∧
      (s.setMap ms).events = s.events ∧ (s.setMap ms).management = s.management ∧ (s.setMap ms).pending = s.pending :=
  ⟨rfl, rfl, rfl, rfl, rfl, rfl, rfl, rfl, rfl⟩

@[simp] theorem State.setEntry_frame (i : Fin 64) (e : Option Entry) (s : State) :
    (s.setEntry i e).port = s.port ∧ (s.setEntry i e).regions = s.regions ∧ (s.setEntry i e).memory = s.memory ∧
      (s.setEntry i e).patrol = s.patrol ∧ (s.setEntry i e).history = s.history ∧
      (s.setEntry i e).retirement = s.retirement ∧ (s.setEntry i e).events = s.events ∧
      (s.setEntry i e).management = s.management ∧ (s.setEntry i e).pending = s.pending :=
  ⟨rfl, rfl, rfl, rfl, rfl, rfl, rfl, rfl, rfl⟩

@[simp] theorem State.wait_frame (i : Fin 64) (e : Entry) (s : State) :
    (s.wait i e).port = s.port ∧ (s.wait i e).regions = s.regions ∧ (s.wait i e).patrol = s.patrol ∧
      (s.wait i e).history = s.history ∧ (s.wait i e).retirement = s.retirement ∧ (s.wait i e).events = s.events ∧
      (s.wait i e).management = s.management ∧ (s.wait i e).pending = s.pending :=
  ⟨rfl, rfl, rfl, rfl, rfl, rfl, rfl, rfl⟩

@[simp] theorem State.prepareMap_frame (job : CopyJob) (s : State) :
    (s.prepareMap job).port = s.port ∧ (s.prepareMap job).regions = s.regions ∧
      (s.prepareMap job).tracker = s.tracker ∧ (s.prepareMap job).memory = s.memory ∧
      (s.prepareMap job).patrol = s.patrol ∧ (s.prepareMap job).history = s.history ∧
      (s.prepareMap job).events = s.events ∧ (s.prepareMap job).management = s.management ∧
      (s.prepareMap job).pending = s.pending := by
  unfold State.prepareMap; (repeat' split) <;> simp

@[simp] theorem State.becomeOwner_frame (i : Fin 64) (s : State) :
    (s.becomeOwner i).port = s.port ∧ (s.becomeOwner i).regions = s.regions ∧ (s.becomeOwner i).patrol = s.patrol ∧
      (s.becomeOwner i).history = s.history ∧ (s.becomeOwner i).events = s.events ∧
      (s.becomeOwner i).management = s.management ∧ (s.becomeOwner i).pending = s.pending := by
  unfold State.becomeOwner; (repeat' split) <;> simp

@[simp] theorem State.create_frame (i : Fin 64) (e : Entry) (s : State) :
    (s.create i e).port = s.port ∧ (s.create i e).regions = s.regions ∧ (s.create i e).patrol = s.patrol ∧
      (s.create i e).history = s.history ∧ (s.create i e).events = s.events ∧
      (s.create i e).management = s.management ∧ (s.create i e).pending = s.pending := by
  unfold State.create; (repeat' split) <;> simp

@[simp] theorem State.leaveOrder_frame (i : Fin 64) (s : State) :
    (s.leaveOrder i).port = s.port ∧ (s.leaveOrder i).regions = s.regions ∧ (s.leaveOrder i).memory = s.memory ∧
      (s.leaveOrder i).patrol = s.patrol ∧ (s.leaveOrder i).history = s.history ∧
      (s.leaveOrder i).retirement = s.retirement ∧ (s.leaveOrder i).events = s.events ∧
      (s.leaveOrder i).management = s.management ∧ (s.leaveOrder i).pending = s.pending :=
  ⟨rfl, rfl, rfl, rfl, rfl, rfl, rfl, rfl, rfl⟩

@[simp] theorem State.release_frame (i : Fin 64) (s : State) :
    (s.release i).port = s.port ∧ (s.release i).regions = s.regions ∧ (s.release i).patrol = s.patrol ∧
      (s.release i).history = s.history ∧ (s.release i).retirement = s.retirement ∧
      (s.release i).events = s.events ∧ (s.release i).management = s.management ∧ (s.release i).pending = s.pending :=
  ⟨rfl, rfl, rfl, rfl, rfl, rfl, rfl, rfl⟩

@[simp] theorem State.offerRepair_frame (l : LineNo) (s : State) :
    (s.offerRepair l).port = s.port ∧ (s.offerRepair l).regions = s.regions ∧
      (s.offerRepair l).tracker = s.tracker ∧ (s.offerRepair l).memory = s.memory ∧
      (s.offerRepair l).history = s.history ∧ (s.offerRepair l).retirement = s.retirement ∧
      (s.offerRepair l).events = s.events ∧ (s.offerRepair l).management = s.management ∧
      (s.offerRepair l).pending = s.pending := by
  unfold State.offerRepair; (repeat' split) <;> simp

@[simp] theorem State.dropRepairs_frame (p : LineNo → Bool) (s : State) :
    (s.dropRepairs p).port = s.port ∧ (s.dropRepairs p).regions = s.regions ∧
      (s.dropRepairs p).tracker = s.tracker ∧ (s.dropRepairs p).memory = s.memory ∧
      (s.dropRepairs p).history = s.history ∧ (s.dropRepairs p).retirement = s.retirement ∧
      (s.dropRepairs p).events = s.events ∧ (s.dropRepairs p).management = s.management ∧
      (s.dropRepairs p).pending = s.pending :=
  ⟨rfl, rfl, rfl, rfl, rfl, rfl, rfl, rfl, rfl⟩

@[simp] theorem State.forgetHistory_frame (p : HistoryEntry → Bool) (s : State) :
    (s.forgetHistory p).port = s.port ∧ (s.forgetHistory p).regions = s.regions ∧
      (s.forgetHistory p).tracker = s.tracker ∧ (s.forgetHistory p).memory = s.memory ∧
      (s.forgetHistory p).patrol = s.patrol ∧ (s.forgetHistory p).retirement = s.retirement ∧
      (s.forgetHistory p).events = s.events ∧ (s.forgetHistory p).management = s.management ∧
      (s.forgetHistory p).pending = s.pending :=
  ⟨rfl, rfl, rfl, rfl, rfl, rfl, rfl, rfl, rfl⟩

@[simp] theorem State.unqueueHistory_frame (l : LineNo) (s : State) :
    (s.unqueueHistory l).port = s.port ∧ (s.unqueueHistory l).regions = s.regions ∧
      (s.unqueueHistory l).tracker = s.tracker ∧ (s.unqueueHistory l).memory = s.memory ∧
      (s.unqueueHistory l).patrol = s.patrol ∧ (s.unqueueHistory l).retirement = s.retirement ∧
      (s.unqueueHistory l).events = s.events ∧ (s.unqueueHistory l).management = s.management ∧
      (s.unqueueHistory l).pending = s.pending :=
  ⟨rfl, rfl, rfl, rfl, rfl, rfl, rfl, rfl, rfl⟩

@[simp] theorem State.noticeEnded_frame (o : RetireOrigin) (l : LineNo) (s : State) :
    (s.noticeEnded o l).port = s.port ∧ (s.noticeEnded o l).regions = s.regions ∧
      (s.noticeEnded o l).tracker = s.tracker ∧ (s.noticeEnded o l).memory = s.memory ∧
      (s.noticeEnded o l).patrol = s.patrol ∧ (s.noticeEnded o l).retirement = s.retirement ∧
      (s.noticeEnded o l).events = s.events ∧ (s.noticeEnded o l).management = s.management ∧
      (s.noticeEnded o l).pending = s.pending := by
  unfold State.noticeEnded; (repeat' split) <;> simp

/-! ### What the operations write -/

@[simp] theorem State.raise_events (n : Notice) (s : State) : (s.raise n).events = s.events.push n := rfl

@[simp] theorem State.setRegion_regions (i : Fin 32) (r : Option Region) (s : State) :
    (s.setRegion i r).regions = s.regions.set i.val r := rfl

@[simp] theorem State.setMap_retirement (ms : List MapEntry) (s : State) :
    (s.setMap ms).retirement = { s.retirement with map := ms } := rfl

@[simp] theorem State.setEntry_tracker (i : Fin 64) (e : Option Entry) (s : State) :
    (s.setEntry i e).tracker = { s.tracker with entries := s.tracker.entries.set i.val e } := rfl

@[simp] theorem State.wait_memory (i : Fin 64) (e : Entry) (s : State) : (s.wait i e).memory = s.memory.join i := rfl

@[simp] theorem State.closeEvent_frame (s : State) :
    s.closeEvent.port = s.port ∧ s.closeEvent.regions = s.regions ∧ s.closeEvent.tracker = s.tracker ∧
      s.closeEvent.patrol = s.patrol ∧ s.closeEvent.history = s.history ∧ s.closeEvent.retirement = s.retirement ∧
      s.closeEvent.events = s.events ∧ s.closeEvent.management = s.management ∧ s.closeEvent.pending = s.pending :=
  ⟨rfl, rfl, rfl, rfl, rfl, rfl, rfl, rfl, rfl⟩

@[simp] theorem State.closeEvent_memory (s : State) : s.closeEvent.memory = { s.memory with joined := [] } := rfl

/-- Joining the waiting order changes the two lists of waiting entries alone. -/
@[simp] theorem MemoryPort.join_frame (i : Fin 64) (m : MemoryPort) :
    (m.join i).link = m.link ∧ (m.join i).capacity = m.capacity ∧ (m.join i).announced = m.announced ∧
      (m.join i).records = m.records ∧ (m.join i).mtimeout = m.mtimeout ∧ (m.join i).helloStart = m.helloStart ∧
      (m.join i).sent = m.sent :=
  ⟨rfl, rfl, rfl, rfl, rfl, rfl, rfl⟩

/-- R76: what joining does: behind the entries of earlier events, in ascending order among those of this one. -/
theorem joinWaiting_append {joined old new : List (Fin 64)} {i : Fin 64} (ho : ∀ j ∈ old, j ∉ joined)
    (hn : ∀ j ∈ new, j ∈ joined) (hp : new.Pairwise (· < ·)) (hi : i ∉ new) :
    joinWaiting joined i (old ++ new) = old ++ (new.filter (· < i) ++ i :: new.filter (i < ·)) := by
  induction old with
  | cons j js ih =>
    have hj := ho j (by simp)
    simp [joinWaiting, hj, ih fun k hk => ho k (by simp [hk])]
  | nil =>
    induction new with
    | nil => rfl
    | cons j js ih =>
      have hj := hn j (by simp)
      obtain ⟨hlt, hp⟩ := List.pairwise_cons.1 hp
      rw [List.nil_append, joinWaiting]
      by_cases h : i < j
      · have above : js.filter (fun k => decide (i < k)) = js :=
          List.filter_eq_self.2 fun k hk => decide_eq_true (lt_trans h (hlt k hk))
        have below : js.filter (fun k => decide (k < i)) = [] :=
          List.filter_eq_nil_iff.2 fun k hk => by simp [(lt_trans h (hlt k hk)).le]
        simp [hj, h, h.le, above, below]
      · have hji : j < i := lt_of_le_of_ne (not_lt.1 h) fun e => hi (by simp [e])
        have := ih (fun k hk => hn k (by simp [hk])) hp fun hk => hi (by simp [hk])
        simp only [List.nil_append] at this
        simp [h, hji, this]

/-- At the first joining of an event an entry joins the end of the waiting order. -/
theorem joinWaiting_nil (i : Fin 64) (l : List (Fin 64)) : joinWaiting [] i l = l ++ [i] := by
  simpa using joinWaiting_append (joined := []) (old := l) (new := []) (i := i) (by simp) (by simp) .nil (by simp)

theorem mem_joinWaiting {joined : List (Fin 64)} {i j : Fin 64} {l : List (Fin 64)} :
    j ∈ joinWaiting joined i l ↔ j = i ∨ j ∈ l := by
  induction l with
  | nil => simp [joinWaiting]
  | cons k ks ih =>
    unfold joinWaiting
    split
    · simp
    · simp only [List.mem_cons, ih]
      tauto

@[simp] theorem State.wait_tracker (i : Fin 64) (e : Entry) (s : State) :
    (s.wait i e).tracker
      = { s.tracker with entries := s.tracker.entries.set i.val (some { e with phase := .waitingIssue }) } := rfl

@[simp] theorem State.leaveOrder_tracker (i : Fin 64) (s : State) :
    (s.leaveOrder i).tracker = { s.tracker with order := s.tracker.order.filter (· ≠ i) } := rfl

@[simp] theorem State.release_tracker (i : Fin 64) (s : State) :
    (s.release i).tracker
      = { entries := s.tracker.entries.set i.val none, order := s.tracker.order.filter (· ≠ i) } := rfl

@[simp] theorem State.release_memory (i : Fin 64) (s : State) :
    (s.release i).memory = { s.memory with waiting := s.memory.waiting.filter (· ≠ i) } := rfl

@[simp] theorem State.dropRepairs_patrol (p : LineNo → Bool) (s : State) :
    (s.dropRepairs p).patrol = { s.patrol with repairQueue := s.patrol.repairQueue.filter fun l => !p l } := rfl

@[simp] theorem State.forgetHistory_history (p : HistoryEntry → Bool) (s : State) :
    (s.forgetHistory p).history = s.history.map fun x => x.filter fun e => !p e := rfl

/-! ### Tables read back -/

theorem State.region_setRegion (i j : Fin 32) (r : Option Region) (s : State) :
    (s.setRegion i r).region j = if i = j then r else s.region j := by
  simp only [State.region, State.setRegion_regions, Vector.getElem_set, Fin.val_inj]

theorem State.entry_setEntry (i j : Fin 64) (e : Option Entry) (s : State) :
    (s.setEntry i e).entry j = if i = j then e else s.entry j := by
  simp only [State.entry, State.setEntry_tracker, Vector.getElem_set, Fin.val_inj]

theorem State.entry_release (i j : Fin 64) (s : State) :
    (s.release i).entry j = if i = j then none else s.entry j := by
  simp only [State.entry, State.release_tracker, Vector.getElem_set, Fin.val_inj]

theorem State.entry_wait (i j : Fin 64) (e : Entry) (s : State) :
    (s.wait i e).entry j = if i = j then some { e with phase := .waitingIssue } else s.entry j := by
  simp only [State.entry, State.wait_tracker, Vector.getElem_set, Fin.val_inj]

/-- A region changed in place is read back changed; the others are as they were. -/
theorem State.region_modifyRegion (i j : Fin 32) (f : Region → Region) (s : State) :
    (s.modifyRegion i f).region j = if i = j then (s.region j).map f else s.region j := by
  unfold State.modifyRegion
  split
  · rename_i r h
    rw [State.region_setRegion]
    split
    · rename_i hij; subst hij; rw [h]; rfl
    · rfl
  · rename_i h
    split
    · rename_i hij; subst hij; rw [h]; rfl
    · rfl

end Sys2Proof.Machine
end

