-- ==== Sys2Proof/Laws/Frames.lean ====
section
/-! SUPPORT. What each operation of a block leaves alone, field by field: one frame for each operation, so that no later
proof opens an operation to see that it does not touch a field. -/

namespace Sys2Proof.Machine

/-! ### The retirement unit -/

@[simp] theorem State.enqueueRetire_frame (l : LineNo) (o : RetireOrigin) (i : Nat) (s : State) :
    (s.enqueueRetire l o i).port = s.port ∧ (s.enqueueRetire l o i).regions = s.regions ∧
      (s.enqueueRetire l o i).tracker = s.tracker ∧ (s.enqueueRetire l o i).memory = s.memory ∧
      (s.enqueueRetire l o i).patrol = s.patrol ∧ (s.enqueueRetire l o i).history = s.history ∧
      (s.enqueueRetire l o i).events = s.events ∧ (s.enqueueRetire l o i).management = s.management ∧
      (s.enqueueRetire l o i).pending = s.pending := by simp [State.enqueueRetire]

@[simp] theorem State.copyStart_frame (s : State) :
    (s.copyStart).port = s.port ∧ (s.copyStart).regions = s.regions ∧ (s.copyStart).patrol = s.patrol ∧
      (s.copyStart).history = s.history ∧ (s.copyStart).events = s.events ∧
      (s.copyStart).management = s.management ∧ (s.copyStart).pending = s.pending := by
  unfold State.copyStart; (repeat' split) <;> simp

@[simp] theorem State.endCopy_frame (s : State) :
    (s.endCopy).port = s.port ∧ (s.endCopy).regions = s.regions ∧ (s.endCopy).tracker = s.tracker ∧
      (s.endCopy).memory = s.memory ∧ (s.endCopy).patrol = s.patrol ∧ (s.endCopy).history = s.history ∧
      (s.endCopy).events = s.events ∧ (s.endCopy).management = s.management ∧ (s.endCopy).pending = s.pending :=
  ⟨rfl, rfl, rfl, rfl, rfl, rfl, rfl, rfl, rfl⟩

@[simp] theorem State.moveSpares_frame (job : CopyJob) (s : State) :
    (s.moveSpares job).port = s.port ∧ (s.moveSpares job).regions = s.regions ∧
      (s.moveSpares job).tracker = s.tracker ∧ (s.moveSpares job).memory = s.memory ∧
      (s.moveSpares job).patrol = s.patrol ∧ (s.moveSpares job).history = s.history ∧
      (s.moveSpares job).events = s.events ∧ (s.moveSpares job).management = s.management ∧
      (s.moveSpares job).pending = s.pending := by
  unfold State.moveSpares; (repeat' split) <;> simp

@[simp] theorem State.activateMap_frame (job : CopyJob) (s : State) :
    (s.activateMap job).port = s.port ∧ (s.activateMap job).regions = s.regions ∧
      (s.activateMap job).tracker = s.tracker ∧ (s.activateMap job).memory = s.memory ∧
      (s.activateMap job).patrol = s.patrol ∧ (s.activateMap job).history = s.history ∧
      (s.activateMap job).events = s.events ∧ (s.activateMap job).management = s.management ∧
      (s.activateMap job).pending = s.pending :=
  ⟨rfl, rfl, rfl, rfl, rfl, rfl, rfl, rfl, rfl⟩

@[simp] theorem State.copySucceed_frame (r : Option (Fin 32)) (s : State) :
    (s.copySucceed r).port = s.port ∧ (s.copySucceed r).regions = s.regions ∧
      (s.copySucceed r).tracker = s.tracker ∧ (s.copySucceed r).memory = s.memory ∧
      (s.copySucceed r).management = s.management ∧ (s.copySucceed r).pending = s.pending := by
  unfold State.copySucceed; (repeat' split) <;> simp

@[simp] theorem State.restoreMap_frame (job : CopyJob) (s : State) :
    (s.restoreMap job).port = s.port ∧ (s.restoreMap job).regions = s.regions ∧
      (s.restoreMap job).tracker = s.tracker ∧ (s.restoreMap job).memory = s.memory ∧
      (s.restoreMap job).patrol = s.patrol ∧ (s.restoreMap job).history = s.history ∧
      (s.restoreMap job).events = s.events ∧ (s.restoreMap job).management = s.management ∧
      (s.restoreMap job).pending = s.pending := by
  unfold State.restoreMap; (repeat' split) <;> simp

@[simp] theorem State.copyFail_frame (o i : Bool) (w : Reason) (r : Option (Fin 32)) (s : State) :
    (s.copyFail o i w r).port = s.port ∧ (s.copyFail o i w r).regions = s.regions ∧
      (s.copyFail o i w r).tracker = s.tracker ∧ (s.copyFail o i w r).memory = s.memory ∧
      (s.copyFail o i w r).patrol = s.patrol ∧ (s.copyFail o i w r).management = s.management ∧
      (s.copyFail o i w r).pending = s.pending := by
  unfold State.copyFail; (repeat' split) <;> simp

@[simp] theorem State.failQueued_frame (q : RetireEntry) (s : State) :
    (s.failQueued q).port = s.port ∧ (s.failQueued q).regions = s.regions ∧ (s.failQueued q).tracker = s.tracker ∧
      (s.failQueued q).memory = s.memory ∧ (s.failQueued q).patrol = s.patrol ∧
      (s.failQueued q).management = s.management ∧ (s.failQueued q).pending = s.pending := by simp [State.failQueued]

@[simp] theorem State.clipSpares_frame (n : Nat) (s : State) :
    (s.clipSpares n).port = s.port ∧ (s.clipSpares n).regions = s.regions ∧ (s.clipSpares n).tracker = s.tracker ∧
      (s.clipSpares n).memory = s.memory ∧ (s.clipSpares n).patrol = s.patrol ∧
      (s.clipSpares n).management = s.management ∧ (s.clipSpares n).pending = s.pending := by
  unfold State.clipSpares
  have h {α : Type} (π : State → α) (hπ : ∀ t q, π (State.failQueued t q) = π t) (l : List RetireEntry) (t : State) :=
    foldl_frame State.failQueued π hπ l t
  (repeat' split) <;> simp [h (·.port) (by simp), h (·.regions) (by simp), h (·.tracker) (by simp), h (·.memory) (by simp),
    h (·.patrol) (by simp), h (·.management) (by simp), h (·.pending) (by simp)]

/-! ### The error history table -/

@[simp] theorem State.setSlot_frame (i : Fin 128) (e : Option HistoryEntry) (s : State) :
    (s.setSlot i e).port = s.port ∧ (s.setSlot i e).regions = s.regions ∧ (s.setSlot i e).tracker = s.tracker ∧
      (s.setSlot i e).memory = s.memory ∧ (s.setSlot i e).patrol = s.patrol ∧
      (s.setSlot i e).retirement = s.retirement ∧ (s.setSlot i e).events = s.events ∧
      (s.setSlot i e).management = s.management ∧ (s.setSlot i e).pending = s.pending :=
  ⟨rfl, rfl, rfl, rfl, rfl, rfl, rfl, rfl, rfl⟩

@[simp] theorem State.setRetireState_frame (i : Fin 128) (x : RetireState) (s : State) :
    (s.setRetireState i x).port = s.port ∧ (s.setRetireState i x).regions = s.regions ∧
      (s.setRetireState i x).tracker = s.tracker ∧ (s.setRetireState i x).memory = s.memory ∧
      (s.setRetireState i x).patrol = s.patrol ∧ (s.setRetireState i x).retirement = s.retirement ∧
      (s.setRetireState i x).events = s.events ∧ (s.setRetireState i x).management = s.management ∧
      (s.setRetireState i x).pending = s.pending :=
  ⟨rfl, rfl, rfl, rfl, rfl, rfl, rfl, rfl, rfl⟩

@[simp] theorem State.autoAnswer_frame (i : Fin 128) (e : HistoryEntry) (a : RetireAnswer) (s : State) :
    (s.autoAnswer i e a).port = s.port ∧ (s.autoAnswer i e a).regions = s.regions ∧
      (s.autoAnswer i e a).tracker = s.tracker ∧ (s.autoAnswer i e a).memory = s.memory ∧
      (s.autoAnswer i e a).patrol = s.patrol ∧ (s.autoAnswer i e a).management = s.management ∧
      (s.autoAnswer i e a).pending = s.pending := by
  unfold State.autoAnswer; (repeat' split) <;> simp

@[simp] theorem State.thresholdTest_frame (i : Fin 128) (s : State) :
    (s.thresholdTest i).port = s.port ∧ (s.thresholdTest i).regions = s.regions ∧
      (s.thresholdTest i).tracker = s.tracker ∧ (s.thresholdTest i).memory = s.memory ∧
      (s.thresholdTest i).patrol = s.patrol ∧ (s.thresholdTest i).management = s.management ∧
      (s.thresholdTest i).pending = s.pending := by
  unfold State.thresholdTest; (repeat' split) <;> simp

@[simp] theorem State.reportWriteBack_frame (l : LineNo) (r : Fin 32) (p : Fin 72) (o : WriteBackOrigin) (s : State) :
    (s.reportWriteBack l r p o).port = s.port ∧ (s.reportWriteBack l r p o).regions = s.regions ∧
      (s.reportWriteBack l r p o).tracker = s.tracker ∧ (s.reportWriteBack l r p o).memory = s.memory ∧
      (s.reportWriteBack l r p o).patrol = s.patrol ∧ (s.reportWriteBack l r p o).management = s.management ∧
      (s.reportWriteBack l r p o).pending = s.pending := by
  unfold State.reportWriteBack; (repeat' split) <;> simp

/-! ### The fill engine -/

@[simp] theorem State.setFill_frame (f : Option Fill) (s : State) :
    (s.setFill f).port = s.port ∧ (s.setFill f).regions = s.regions ∧ (s.setFill f).tracker = s.tracker ∧
      (s.setFill f).memory = s.memory ∧ (s.setFill f).history = s.history ∧
      (s.setFill f).retirement = s.retirement ∧ (s.setFill f).events = s.events ∧
      (s.setFill f).management = s.management ∧ (s.setFill f).pending = s.pending :=
  ⟨rfl, rfl, rfl, rfl, rfl, rfl, rfl, rfl, rfl⟩

@[simp] theorem State.fillOne_frame (i : Fin 64) (f : Fill) (l : LineNo) (s : State) :
    (s.fillOne i f l).port = s.port ∧ (s.fillOne i f l).regions = s.regions ∧
      (s.fillOne i f l).history = s.history ∧ (s.fillOne i f l).events = s.events ∧
      (s.fillOne i f l).management = s.management ∧ (s.fillOne i f l).pending = s.pending := by simp [State.fillOne]

@[simp] theorem State.fillSome_frame (n : Nat) (s : State) :
    (s.fillSome n).port = s.port ∧ (s.fillSome n).regions = s.regions ∧ (s.fillSome n).history = s.history ∧
      (s.fillSome n).events = s.events ∧ (s.fillSome n).management = s.management ∧
      (s.fillSome n).pending = s.pending := by
  induction n generalizing s with
  | zero => simp [State.fillSome]
  | succ n ih => unfold State.fillSome; (repeat' split) <;> simp [ih]

@[simp] theorem State.fillIssue_frame (s : State) :
    (s.fillIssue).port = s.port ∧ (s.fillIssue).regions = s.regions ∧ (s.fillIssue).history = s.history ∧
      (s.fillIssue).events = s.events ∧ (s.fillIssue).management = s.management ∧ (s.fillIssue).pending = s.pending := by
  unfold State.fillIssue; (repeat' split) <;> simp

@[simp] theorem State.endFilling_frame (i : Fin 32) (p : RegionPhase) (s : State) :
    (s.endFilling i p).port = s.port ∧ (s.endFilling i p).tracker = s.tracker ∧
      (s.endFilling i p).memory = s.memory ∧ (s.endFilling i p).history = s.history ∧
      (s.endFilling i p).retirement = s.retirement ∧ (s.endFilling i p).events = s.events ∧
      (s.endFilling i p).management = s.management ∧ (s.endFilling i p).pending = s.pending := by simp [State.endFilling]

@[simp] theorem State.fillComplete_frame (f : Fill) (s : State) :
    (s.fillComplete f).port = s.port ∧ (s.fillComplete f).tracker = s.tracker ∧
      (s.fillComplete f).memory = s.memory ∧ (s.fillComplete f).history = s.history ∧
      (s.fillComplete f).retirement = s.retirement ∧ (s.fillComplete f).management = s.management ∧
      (s.fillComplete f).pending = s.pending := by simp [State.fillComplete]

@[simp] theorem State.fillStopped_frame (f : Fill) (s : State) :
    (s.fillStopped f).port = s.port ∧ (s.fillStopped f).tracker = s.tracker ∧ (s.fillStopped f).memory = s.memory ∧
      (s.fillStopped f).history = s.history ∧ (s.fillStopped f).retirement = s.retirement ∧
      (s.fillStopped f).management = s.management ∧ (s.fillStopped f).pending = s.pending := by simp [State.fillStopped]

@[simp] theorem State.fillFailed_frame (f : Fill) (s : State) :
    (s.fillFailed f).port = s.port ∧ (s.fillFailed f).tracker = s.tracker ∧ (s.fillFailed f).memory = s.memory ∧
      (s.fillFailed f).history = s.history ∧ (s.fillFailed f).retirement = s.retirement ∧
      (s.fillFailed f).management = s.management ∧ (s.fillFailed f).pending = s.pending := by simp [State.fillFailed]

@[simp] theorem State.fillAdvance_frame (f : Fill) (s : State) :
    (s.fillAdvance f).port = s.port ∧ (s.fillAdvance f).tracker = s.tracker ∧ (s.fillAdvance f).memory = s.memory ∧
      (s.fillAdvance f).history = s.history ∧ (s.fillAdvance f).retirement = s.retirement ∧
      (s.fillAdvance f).management = s.management ∧ (s.fillAdvance f).pending = s.pending := by
  unfold State.fillAdvance; (repeat' split) <;> simp

@[simp] theorem State.fillAcknowledged_frame (l : LineNo) (s : State) :
    (s.fillAcknowledged l).port = s.port ∧ (s.fillAcknowledged l).tracker = s.tracker ∧
      (s.fillAcknowledged l).memory = s.memory ∧ (s.fillAcknowledged l).history = s.history ∧
      (s.fillAcknowledged l).retirement = s.retirement ∧ (s.fillAcknowledged l).management = s.management ∧
      (s.fillAcknowledged l).pending = s.pending := by
  unfold State.fillAcknowledged; (repeat' split) <;> simp

@[simp] theorem State.fillWriteFailed_frame (l p : LineNo) (w : FillFailure) (s : State) :
    (s.fillWriteFailed l p w).port = s.port ∧ (s.fillWriteFailed l p w).tracker = s.tracker ∧
      (s.fillWriteFailed l p w).memory = s.memory ∧ (s.fillWriteFailed l p w).history = s.history ∧
      (s.fillWriteFailed l p w).retirement = s.retirement ∧ (s.fillWriteFailed l p w).management = s.management ∧
      (s.fillWriteFailed l p w).pending = s.pending := by
  unfold State.fillWriteFailed; (repeat' split) <;> simp

@[simp] theorem State.fillLost_frame (s : State) :
    (s.fillLost).port = s.port ∧ (s.fillLost).tracker = s.tracker ∧ (s.fillLost).memory = s.memory ∧
      (s.fillLost).history = s.history ∧ (s.fillLost).retirement = s.retirement ∧
      (s.fillLost).management = s.management ∧ (s.fillLost).pending = s.pending := by
  unfold State.fillLost; (repeat' split) <;> simp

/-! ### Scan and repair -/

@[simp] theorem State.scanBurst_frame (i : Fin 32) (n : Nat) (s : State) :
    (s.scanBurst i n).port = s.port ∧ (s.scanBurst i n).patrol = s.patrol ∧ (s.scanBurst i n).history = s.history ∧
      (s.scanBurst i n).management = s.management ∧ (s.scanBurst i n).pending = s.pending := by
  induction n generalizing s with
  | zero => simp [State.scanBurst]
  | succ n ih => unfold State.scanBurst; (repeat' split) <;> simp [ih]

@[simp] theorem State.nextSlot_frame (s : State) :
    (s.nextSlot).port = s.port ∧ (s.nextSlot).regions = s.regions ∧ (s.nextSlot).tracker = s.tracker ∧
      (s.nextSlot).memory = s.memory ∧ (s.nextSlot).history = s.history ∧ (s.nextSlot).retirement = s.retirement ∧
      (s.nextSlot).events = s.events ∧ (s.nextSlot).management = s.management ∧ (s.nextSlot).pending = s.pending :=
  ⟨rfl, rfl, rfl, rfl, rfl, rfl, rfl, rfl, rfl⟩

@[simp] theorem State.serveSlot_frame (s : State) :
    (s.serveSlot).port = s.port ∧ (s.serveSlot).history = s.history ∧ (s.serveSlot).management = s.management ∧
      (s.serveSlot).pending = s.pending := by
  unfold State.serveSlot; (repeat' split) <;> simp

@[simp] theorem State.slotExpiry_frame (s : State) :
    (s.slotExpiry).port = s.port ∧ (s.slotExpiry).history = s.history ∧ (s.slotExpiry).management = s.management ∧
      (s.slotExpiry).pending = s.pending := by
  unfold State.slotExpiry; (repeat' split) <;> simp

@[simp] theorem State.repairService_frame (s : State) :
    (s.repairService).port = s.port ∧ (s.repairService).regions = s.regions ∧
      (s.repairService).history = s.history ∧ (s.repairService).events = s.events ∧
      (s.repairService).management = s.management ∧ (s.repairService).pending = s.pending := by
  unfold State.repairService; (repeat' split) <;> simp

/-- An entry that is no copy leaves the retirement unit alone when it becomes owner. -/
theorem State.becomeOwner_retirement {i : Fin 64} {s : State} (h : ∀ e, s.entry i = some e → e.origin ≠ .copy) :
    (s.becomeOwner i).retirement = s.retirement := by
  unfold State.becomeOwner
  split
  · rfl
  · rename_i e he
    split
    · rename_i ho _
      exact absurd ho (h e he)
    · simp

/-- The creation of an entry that is no copy leaves the retirement unit alone. -/
theorem State.create_retirement {i : Fin 64} {e : Entry} {s : State} (h : e.origin ≠ .copy) :
    (s.create i e).retirement = s.retirement := by
  unfold State.create
  split
  · rw [State.becomeOwner_retirement]
    intro x hx
    simp only [State.entry, Vector.getElem_set_self, Option.some.injEq] at hx
    subst hx
    exact h
  · rfl

@[simp] theorem State.repairService_retirement (s : State) : s.repairService.retirement = s.retirement := by
  unfold State.repairService
  (repeat' split) <;> simp [State.create_retirement, repairEntry]

@[simp] theorem State.serveRepairsFor_frame (n : Nat) (s : State) :
    (s.serveRepairsFor n).port = s.port ∧ (s.serveRepairsFor n).regions = s.regions ∧
      (s.serveRepairsFor n).history = s.history ∧ (s.serveRepairsFor n).retirement = s.retirement ∧
      (s.serveRepairsFor n).events = s.events ∧ (s.serveRepairsFor n).management = s.management ∧
      (s.serveRepairsFor n).pending = s.pending := by
  induction n generalizing s with
  | zero => simp [State.serveRepairsFor]
  | succ n ih => unfold State.serveRepairsFor; (repeat' split) <;> simp [ih]

@[simp] theorem State.serveRepairs_frame (s : State) :
    (s.serveRepairs).port = s.port ∧ (s.serveRepairs).regions = s.regions ∧ (s.serveRepairs).history = s.history ∧
      (s.serveRepairs).retirement = s.retirement ∧ (s.serveRepairs).events = s.events ∧
      (s.serveRepairs).management = s.management ∧ (s.serveRepairs).pending = s.pending := by simp [State.serveRepairs]

@[simp] theorem State.offerAndServe_frame (l : LineNo) (s : State) :
    (s.offerAndServe l).port = s.port ∧ (s.offerAndServe l).regions = s.regions ∧
      (s.offerAndServe l).history = s.history ∧ (s.offerAndServe l).retirement = s.retirement ∧
      (s.offerAndServe l).events = s.events ∧ (s.offerAndServe l).management = s.management ∧
      (s.offerAndServe l).pending = s.pending := by simp [State.offerAndServe]

@[simp] theorem State.patrolRead_frame (i : Fin 64) (e : Entry) (f : Finding) (d : Data) (s : State) :
    (s.patrolRead i e f d).port = s.port ∧ (s.patrolRead i e f d).regions = s.regions ∧
      (s.patrolRead i e f d).patrol = s.patrol ∧ (s.patrolRead i e f d).history = s.history ∧
      (s.patrolRead i e f d).retirement = s.retirement ∧ (s.patrolRead i e f d).events = s.events ∧
      (s.patrolRead i e f d).management = s.management ∧ (s.patrolRead i e f d).pending = s.pending := by
  unfold State.patrolRead; (repeat' split) <;> simp

@[simp] theorem State.patrolWritten_frame (i : Fin 64) (e : Entry) (s : State) :
    (s.patrolWritten i e).port = s.port ∧ (s.patrolWritten i e).regions = s.regions ∧
      (s.patrolWritten i e).patrol = s.patrol ∧ (s.patrolWritten i e).management = s.management ∧
      (s.patrolWritten i e).pending = s.pending := by
  unfold State.patrolWritten; (repeat' split) <;> simp; split <;> simp

/-! ### The request tracker -/

@[simp] theorem State.refuseRequest_frame (q : Request) (x : Status) (s : State) :
    (s.refuseRequest q x).regions = s.regions ∧ (s.refuseRequest q x).tracker = s.tracker ∧
      (s.refuseRequest q x).memory = s.memory ∧ (s.refuseRequest q x).patrol = s.patrol ∧
      (s.refuseRequest q x).history = s.history ∧ (s.refuseRequest q x).retirement = s.retirement ∧
      (s.refuseRequest q x).events = s.events ∧ (s.refuseRequest q x).management = s.management ∧
      (s.refuseRequest q x).pending = s.pending := by simp [State.refuseRequest]

@[simp] theorem State.decideRequest_frame (q : Request) (i : Fin 64) (s : State) :
    (s.decideRequest q i).patrol = s.patrol ∧ (s.decideRequest q i).history = s.history ∧
      (s.decideRequest q i).management = s.management ∧ (s.decideRequest q i).pending = s.pending := by
  unfold State.decideRequest; (repeat' split) <;> simp

@[simp] theorem State.takeRequest_frame (rest : List Request) (s : State) :
    (s.takeRequest rest).regions = s.regions ∧ (s.takeRequest rest).tracker = s.tracker ∧
      (s.takeRequest rest).memory = s.memory ∧ (s.takeRequest rest).patrol = s.patrol ∧
      (s.takeRequest rest).history = s.history ∧ (s.takeRequest rest).retirement = s.retirement ∧
      (s.takeRequest rest).events = s.events ∧ (s.takeRequest rest).management = s.management ∧
      (s.takeRequest rest).pending = s.pending :=
  ⟨rfl, rfl, rfl, rfl, rfl, rfl, rfl, rfl, rfl⟩

@[simp] theorem State.acceptance_frame (s : State) :
    (s.acceptance).patrol = s.patrol ∧ (s.acceptance).history = s.history ∧
      (s.acceptance).management = s.management ∧ (s.acceptance).pending = s.pending := by
  unfold State.acceptance; (repeat' split) <;> simp

@[simp] theorem State.ownershipPass_frame (s : State) :
    (s.ownershipPass).port = s.port ∧ (s.ownershipPass).regions = s.regions ∧ (s.ownershipPass).patrol = s.patrol ∧
      (s.ownershipPass).history = s.history ∧ (s.ownershipPass).events = s.events ∧
      (s.ownershipPass).management = s.management ∧ (s.ownershipPass).pending = s.pending := by
  unfold State.ownershipPass; (repeat' split) <;> simp

@[simp] theorem State.raiseRead_frame (e : Entry) (f : Finding) (s : State) :
    (s.raiseRead e f).port = s.port ∧ (s.raiseRead e f).regions = s.regions ∧
      (s.raiseRead e f).tracker = s.tracker ∧ (s.raiseRead e f).memory = s.memory ∧
      (s.raiseRead e f).patrol = s.patrol ∧ (s.raiseRead e f).history = s.history ∧
      (s.raiseRead e f).retirement = s.retirement ∧ (s.raiseRead e f).management = s.management ∧
      (s.raiseRead e f).pending = s.pending := by
  unfold State.raiseRead; (repeat' split) <;> simp

@[simp] theorem State.offerIf_frame (b : Bool) (l : LineNo) (s : State) :
    (s.offerIf b l).port = s.port ∧ (s.offerIf b l).regions = s.regions ∧ (s.offerIf b l).tracker = s.tracker ∧
      (s.offerIf b l).memory = s.memory ∧ (s.offerIf b l).history = s.history ∧
      (s.offerIf b l).retirement = s.retirement ∧ (s.offerIf b l).events = s.events ∧
      (s.offerIf b l).management = s.management ∧ (s.offerIf b l).pending = s.pending := by
  unfold State.offerIf; (repeat' split) <;> simp

@[simp] theorem State.countRead_frame (t : Ticket) (e : Entry) (f : Finding) (s : State) :
    (s.countRead t e f).port = s.port ∧ (s.countRead t e f).tracker = s.tracker ∧
      (s.countRead t e f).memory = s.memory ∧ (s.countRead t e f).patrol = s.patrol ∧
      (s.countRead t e f).history = s.history ∧ (s.countRead t e f).retirement = s.retirement ∧
      (s.countRead t e f).events = s.events ∧ (s.countRead t e f).management = s.management ∧
      (s.countRead t e f).pending = s.pending := by
  unfold State.countRead; (repeat' split) <;> simp

@[simp] theorem State.readDecoded_frame (i : Fin 64) (e : Entry) (t : Ticket) (f : Finding) (d : Data) (s : State) :
    (s.readDecoded i e t f d).history = s.history ∧ (s.readDecoded i e t f d).retirement = s.retirement ∧
      (s.readDecoded i e t f d).management = s.management ∧ (s.readDecoded i e t f d).pending = s.pending := by simp [State.readDecoded]

@[simp] theorem State.readUnchecked_frame (i : Fin 64) (t : Ticket) (d : Data) (s : State) :
    (s.readUnchecked i t d).regions = s.regions ∧ (s.readUnchecked i t d).patrol = s.patrol ∧
      (s.readUnchecked i t d).history = s.history ∧ (s.readUnchecked i t d).retirement = s.retirement ∧
      (s.readUnchecked i t d).events = s.events ∧ (s.readUnchecked i t d).management = s.management ∧
      (s.readUnchecked i t d).pending = s.pending := by simp [State.readUnchecked]

@[simp] theorem State.mergeDecoded_frame (i : Fin 64) (e : Entry) (t : Ticket) (f : Finding) (d : Data) (s : State) :
    (s.mergeDecoded i e t f d).regions = s.regions ∧ (s.mergeDecoded i e t f d).history = s.history ∧
      (s.mergeDecoded i e t f d).retirement = s.retirement ∧ (s.mergeDecoded i e t f d).events = s.events ∧
      (s.mergeDecoded i e t f d).management = s.management ∧ (s.mergeDecoded i e t f d).pending = s.pending := by
  unfold State.mergeDecoded; (repeat' split) <;> simp

@[simp] theorem State.mergeUnchecked_frame (i : Fin 64) (e : Entry) (t : Ticket) (d : Data) (s : State) :
    (s.mergeUnchecked i e t d).port = s.port ∧ (s.mergeUnchecked i e t d).regions = s.regions ∧
      (s.mergeUnchecked i e t d).patrol = s.patrol ∧ (s.mergeUnchecked i e t d).history = s.history ∧
      (s.mergeUnchecked i e t d).retirement = s.retirement ∧ (s.mergeUnchecked i e t d).events = s.events ∧
      (s.mergeUnchecked i e t d).management = s.management ∧ (s.mergeUnchecked i e t d).pending = s.pending := by
  unfold State.mergeUnchecked; (repeat' split) <;> simp

@[simp] theorem State.reportMerge_frame (e : Entry) (s : State) :
    (s.reportMerge e).port = s.port ∧ (s.reportMerge e).regions = s.regions ∧
      (s.reportMerge e).tracker = s.tracker ∧ (s.reportMerge e).memory = s.memory ∧
      (s.reportMerge e).patrol = s.patrol ∧ (s.reportMerge e).management = s.management ∧
      (s.reportMerge e).pending = s.pending := by
  unfold State.reportMerge; (repeat' split) <;> simp

@[simp] theorem State.writeDone_frame (i : Fin 64) (e : Entry) (t : Ticket) (s : State) :
    (s.writeDone i e t).regions = s.regions ∧ (s.writeDone i e t).patrol = s.patrol ∧
      (s.writeDone i e t).management = s.management ∧ (s.writeDone i e t).pending = s.pending := by simp [State.writeDone]

@[simp] theorem State.resetEntry_frame (i : Fin 64) (s : State) :
    (s.resetEntry i).port = s.port ∧ (s.resetEntry i).regions = s.regions ∧ (s.resetEntry i).history = s.history ∧
      (s.resetEntry i).retirement = s.retirement ∧ (s.resetEntry i).events = s.events ∧
      (s.resetEntry i).management = s.management ∧ (s.resetEntry i).pending = s.pending := by
  unfold State.resetEntry; (repeat' split) <;> simp

@[simp] theorem State.resetRequesters_frame (s : State) :
    (s.resetRequesters).port = s.port ∧ (s.resetRequesters).regions = s.regions ∧
      (s.resetRequesters).history = s.history ∧ (s.resetRequesters).retirement = s.retirement ∧
      (s.resetRequesters).events = s.events ∧ (s.resetRequesters).management = s.management ∧
      (s.resetRequesters).pending = s.pending := by
  have h {α : Type} (π : State → α) (hπ : ∀ t x, π (State.resetEntry t x) = π t)
      (hσ : ∀ t l, π (State.offerAndServe t l) = π t) : π s.resetRequesters = π s :=
    (foldl_frame State.offerAndServe π hσ _ _).trans (foldl_frame State.resetEntry π hπ _ s)
  exact ⟨h (·.port) (by simp) (by simp), h (·.regions) (by simp) (by simp), h (·.history) (by simp) (by simp),
    h (·.retirement) (by simp) (by simp), h (·.events) (by simp) (by simp), h (·.management) (by simp) (by simp),
    h (·.pending) (by simp) (by simp)⟩

@[simp] theorem State.loseEntry_frame (i : Fin 64) (s : State) :
    (s.loseEntry i).regions = s.regions ∧ (s.loseEntry i).tracker = s.tracker ∧ (s.loseEntry i).memory = s.memory ∧
      (s.loseEntry i).patrol = s.patrol ∧ (s.loseEntry i).history = s.history ∧
      (s.loseEntry i).retirement = s.retirement ∧ (s.loseEntry i).events = s.events ∧
      (s.loseEntry i).management = s.management ∧ (s.loseEntry i).pending = s.pending := by
  unfold State.loseEntry; (repeat' split) <;> simp

@[simp] theorem State.loseAll_frame (s : State) :
    (s.loseAll).regions = s.regions ∧ (s.loseAll).memory = s.memory ∧ (s.loseAll).patrol = s.patrol ∧
      (s.loseAll).history = s.history ∧ (s.loseAll).retirement = s.retirement ∧ (s.loseAll).events = s.events ∧
      (s.loseAll).management = s.management ∧ (s.loseAll).pending = s.pending := by
  have h {α : Type} (π : State → α) (hπ : ∀ t x, π (State.loseEntry t x) = π t) :=
    foldl_frame (State.loseEntry) π hπ (List.finRange 64) s
  simp [State.loseAll, h (·.regions) (by simp), h (·.memory) (by simp), h (·.patrol) (by simp),
    h (·.history) (by simp), h (·.retirement) (by simp), h (·.events) (by simp), h (·.management) (by simp),
    h (·.pending) (by simp)]

/-! ### The memory port -/

@[simp] theorem State.issue_frame (i : Fin 64) (e : Entry) (s : State) :
    (s.issue i e).port = s.port ∧ (s.issue i e).regions = s.regions ∧ (s.issue i e).patrol = s.patrol ∧
      (s.issue i e).history = s.history ∧ (s.issue i e).retirement = s.retirement ∧
      (s.issue i e).events = s.events ∧ (s.issue i e).management = s.management ∧ (s.issue i e).pending = s.pending :=
  ⟨rfl, rfl, rfl, rfl, rfl, rfl, rfl, rfl⟩

@[simp] theorem State.issueGrant_frame (s : State) :
    (s.issueGrant).port = s.port ∧ (s.issueGrant).regions = s.regions ∧ (s.issueGrant).patrol = s.patrol ∧
      (s.issueGrant).history = s.history ∧ (s.issueGrant).retirement = s.retirement ∧
      (s.issueGrant).events = s.events ∧ (s.issueGrant).management = s.management ∧
      (s.issueGrant).pending = s.pending := by
  unfold State.issueGrant; (repeat' split) <;> simp

@[simp] theorem State.clipRegion_frame (n : Nat) (i : Fin 32) (s : State) :
    (s.clipRegion n i).port = s.port ∧ (s.clipRegion n i).tracker = s.tracker ∧
      (s.clipRegion n i).memory = s.memory ∧ (s.clipRegion n i).patrol = s.patrol ∧
      (s.clipRegion n i).history = s.history ∧ (s.clipRegion n i).retirement = s.retirement ∧
      (s.clipRegion n i).management = s.management ∧ (s.clipRegion n i).pending = s.pending := by
  unfold State.clipRegion; (repeat' split) <;> simp

@[simp] theorem State.clipRegions_frame (n : Nat) (s : State) :
    (s.clipRegions n).port = s.port ∧ (s.clipRegions n).tracker = s.tracker ∧ (s.clipRegions n).memory = s.memory ∧
      (s.clipRegions n).patrol = s.patrol ∧ (s.clipRegions n).history = s.history ∧
      (s.clipRegions n).retirement = s.retirement ∧ (s.clipRegions n).management = s.management ∧
      (s.clipRegions n).pending = s.pending := by
  have h {α : Type} (π : State → α) (hπ : ∀ t x, π (State.clipRegion n t x) = π t) :=
    foldl_frame (State.clipRegion n) π hπ (List.finRange 32) s
  refine ⟨h (·.port) (by simp), h (·.tracker) (by simp), h (·.memory) (by simp), h (·.patrol) (by simp),
    h (·.history) (by simp), h (·.retirement) (by simp), h (·.management) (by simp), h (·.pending) (by simp)⟩

@[simp] theorem State.memoryUp_frame (n : Byte) (k : BitVec 64) (s : State) :
    (s.memoryUp n k).port = s.port ∧ (s.memoryUp n k).tracker = s.tracker ∧ (s.memoryUp n k).patrol = s.patrol ∧
      (s.memoryUp n k).management = s.management ∧ (s.memoryUp n k).pending = s.pending := by simp [State.memoryUp]

@[simp] theorem State.memoryHello_frame (n : Byte) (k : BitVec 64) (s : State) :
    (s.memoryHello n k).port = s.port ∧ (s.memoryHello n k).tracker = s.tracker ∧
      (s.memoryHello n k).patrol = s.patrol ∧ (s.memoryHello n k).management = s.management ∧
      (s.memoryHello n k).pending = s.pending := by
  unfold State.memoryHello; (repeat' split) <;> simp

@[simp] theorem State.copyLost_frame (s : State) :
    (s.copyLost).port = s.port ∧ (s.copyLost).regions = s.regions ∧ (s.copyLost).tracker = s.tracker ∧
      (s.copyLost).memory = s.memory ∧ (s.copyLost).patrol = s.patrol ∧ (s.copyLost).management = s.management ∧
      (s.copyLost).pending = s.pending := by
  unfold State.copyLost; (repeat' split) <;> simp

@[simp] theorem State.memoryLoss_frame (w : Reason) (s : State) :
    (s.memoryLoss w).management = s.management ∧ (s.memoryLoss w).pending = s.pending := by
  unfold State.memoryLoss; (repeat' split) <;> simp

@[simp] theorem State.helloExpiry_frame (s : State) :
    (s.helloExpiry).port = s.port ∧ (s.helloExpiry).regions = s.regions ∧ (s.helloExpiry).tracker = s.tracker ∧
      (s.helloExpiry).patrol = s.patrol ∧ (s.helloExpiry).history = s.history ∧
      (s.helloExpiry).retirement = s.retirement ∧ (s.helloExpiry).events = s.events ∧
      (s.helloExpiry).management = s.management ∧ (s.helloExpiry).pending = s.pending := by
  unfold State.helloExpiry; (repeat' split) <;> simp

@[simp] theorem State.memoryBad_frame (k : Byte) (n : Nat) (s : State) :
    (s.memoryBad k n).port = s.port ∧ (s.memoryBad k n).regions = s.regions ∧
      (s.memoryBad k n).tracker = s.tracker ∧ (s.memoryBad k n).memory = s.memory ∧
      (s.memoryBad k n).patrol = s.patrol ∧ (s.memoryBad k n).history = s.history ∧
      (s.memoryBad k n).retirement = s.retirement ∧ (s.memoryBad k n).management = s.management ∧
      (s.memoryBad k n).pending = s.pending := by
  unfold State.memoryBad; (repeat' split) <;> simp

@[simp] theorem State.originFails_frame (e : Entry) (w : FillFailure) (s : State) :
    (s.originFails e w).tracker = s.tracker ∧ (s.originFails e w).memory = s.memory ∧
      (s.originFails e w).management = s.management ∧ (s.originFails e w).pending = s.pending := by
  unfold State.originFails; (repeat' split) <;> simp

@[simp] theorem State.freeCredit_frame (i : Fin 64) (s : State) :
    (s.freeCredit i).port = s.port ∧ (s.freeCredit i).regions = s.regions ∧ (s.freeCredit i).tracker = s.tracker ∧
      (s.freeCredit i).patrol = s.patrol ∧ (s.freeCredit i).history = s.history ∧
      (s.freeCredit i).retirement = s.retirement ∧ (s.freeCredit i).events = s.events ∧
      (s.freeCredit i).management = s.management ∧ (s.freeCredit i).pending = s.pending :=
  ⟨rfl, rfl, rfl, rfl, rfl, rfl, rfl, rfl, rfl⟩

@[simp] theorem State.unmatched_frame (t : Byte) (w : Reason) (s : State) :
    (s.unmatched t w).port = s.port ∧ (s.unmatched t w).regions = s.regions ∧
      (s.unmatched t w).tracker = s.tracker ∧ (s.unmatched t w).memory = s.memory ∧
      (s.unmatched t w).patrol = s.patrol ∧ (s.unmatched t w).history = s.history ∧
      (s.unmatched t w).retirement = s.retirement ∧ (s.unmatched t w).management = s.management ∧
      (s.unmatched t w).pending = s.pending :=
  ⟨rfl, rfl, rfl, rfl, rfl, rfl, rfl, rfl, rfl⟩

@[simp] theorem State.lateCompletion_frame (i : Fin 64) (e : Entry) (b : Bool) (s : State) :
    (s.lateCompletion i e b).port = s.port ∧ (s.lateCompletion i e b).regions = s.regions ∧
      (s.lateCompletion i e b).patrol = s.patrol ∧ (s.lateCompletion i e b).history = s.history ∧
      (s.lateCompletion i e b).retirement = s.retirement ∧ (s.lateCompletion i e b).management = s.management ∧
      (s.lateCompletion i e b).pending = s.pending := by simp [State.lateCompletion]

@[simp] theorem State.targetError_frame (i : Fin 64) (e : Entry) (s : State) :
    (s.targetError i e).management = s.management ∧ (s.targetError i e).pending = s.pending := by simp [State.targetError]

@[simp] theorem State.copyRead_frame (i : Fin 64) (e : Entry) (f : Finding) (d : Data) (s : State) :
    (s.copyRead i e f d).port = s.port ∧ (s.copyRead i e f d).regions = s.regions ∧
      (s.copyRead i e f d).patrol = s.patrol ∧ (s.copyRead i e f d).history = s.history ∧
      (s.copyRead i e f d).events = s.events ∧ (s.copyRead i e f d).management = s.management ∧
      (s.copyRead i e f d).pending = s.pending := by
  unfold State.copyRead; (repeat' split) <;> simp

@[simp] theorem State.readTaken_frame (i : Fin 64) (e : Entry) (x : StoredLine) (s : State) :
    (s.readTaken i e x).history = s.history ∧ (s.readTaken i e x).management = s.management ∧
      (s.readTaken i e x).pending = s.pending := by
  unfold State.readTaken; (repeat' split) <;> simp

@[simp] theorem State.writeTaken_frame (i : Fin 64) (e : Entry) (s : State) :
    (s.writeTaken i e).management = s.management ∧ (s.writeTaken i e).pending = s.pending := by
  unfold State.writeTaken; (repeat' split) <;> simp

@[simp] theorem State.timeoutExpiry_frame (i : Fin 64) (s : State) :
    (s.timeoutExpiry i).memory = s.memory ∧ (s.timeoutExpiry i).management = s.management ∧
      (s.timeoutExpiry i).pending = s.pending := by
  unfold State.timeoutExpiry; (repeat' split) <;> simp

/-! ### The event unit, the requester port and the clock -/

@[simp] theorem State.eventDelivery_frame (s : State) :
    (s.eventDelivery).regions = s.regions ∧ (s.eventDelivery).tracker = s.tracker ∧
      (s.eventDelivery).memory = s.memory ∧ (s.eventDelivery).patrol = s.patrol ∧
      (s.eventDelivery).history = s.history ∧ (s.eventDelivery).retirement = s.retirement ∧
      (s.eventDelivery).management = s.management ∧ (s.eventDelivery).pending = s.pending := by
  unfold State.eventDelivery; (repeat' split) <;> simp

/-- A delivery changes the transmit order of the port alone. -/
@[simp] theorem State.eventDelivery_port (s : State) :
    s.eventDelivery.port.link = s.port.link ∧ s.eventDelivery.port.requests = s.port.requests ∧
      s.eventDelivery.port.commands = s.port.commands ∧ s.eventDelivery.port.requestOwed = s.port.requestOwed ∧
      s.eventDelivery.port.managementOwed = s.port.managementOwed := by
  unfold State.eventDelivery; (repeat' split) <;> simp

@[simp] theorem State.requesterHello_frame (s : State) :
    (s.requesterHello).regions = s.regions ∧ (s.requesterHello).tracker = s.tracker ∧
      (s.requesterHello).memory = s.memory ∧ (s.requesterHello).patrol = s.patrol ∧
      (s.requesterHello).history = s.history ∧ (s.requesterHello).retirement = s.retirement ∧
      (s.requesterHello).events = s.events ∧ (s.requesterHello).management = s.management ∧
      (s.requesterHello).pending = s.pending := by
  unfold State.requesterHello; (repeat' split) <;> simp

@[simp] theorem State.requesterFall_frame (w : Reason) (s : State) :
    (s.requesterFall w).regions = s.regions ∧ (s.requesterFall w).history = s.history ∧
      (s.requesterFall w).retirement = s.retirement ∧ (s.requesterFall w).management = s.management ∧
      (s.requesterFall w).pending = s.pending := by
  unfold State.requesterFall; (repeat' split) <;> simp

@[simp] theorem State.violation_frame (w : Reason) (s : State) :
    (s.violation w).regions = s.regions ∧ (s.violation w).history = s.history ∧
      (s.violation w).retirement = s.retirement ∧ (s.violation w).management = s.management ∧
      (s.violation w).pending = s.pending := by
  unfold State.violation; (repeat' split) <;> simp

@[simp] theorem State.requestArrives_frame (q : Request) (s : State) :
    (s.requestArrives q).regions = s.regions ∧ (s.requestArrives q).history = s.history ∧
      (s.requestArrives q).retirement = s.retirement ∧ (s.requestArrives q).management = s.management ∧
      (s.requestArrives q).pending = s.pending := by
  unfold State.requestArrives; (repeat' split) <;> simp

@[simp] theorem State.commandArrives_frame (k : Command) (s : State) :
    (s.commandArrives k).regions = s.regions ∧ (s.commandArrives k).history = s.history ∧
      (s.commandArrives k).retirement = s.retirement ∧ (s.commandArrives k).management = s.management ∧
      (s.commandArrives k).pending = s.pending := by
  unfold State.commandArrives; (repeat' split) <;> simp

@[simp] theorem State.requesterBad_frame (k : Byte) (n : Nat) (s : State) :
    (s.requesterBad k n).regions = s.regions ∧ (s.requesterBad k n).history = s.history ∧
      (s.requesterBad k n).retirement = s.retirement ∧ (s.requesterBad k n).management = s.management ∧
      (s.requesterBad k n).pending = s.pending := by
  unfold State.requesterBad; (repeat' split) <;> simp

@[simp] theorem State.transmitPacket_frame (s : State) :
    (s.transmitPacket).regions = s.regions ∧ (s.transmitPacket).tracker = s.tracker ∧
      (s.transmitPacket).memory = s.memory ∧ (s.transmitPacket).patrol = s.patrol ∧
      (s.transmitPacket).history = s.history ∧ (s.transmitPacket).retirement = s.retirement ∧
      (s.transmitPacket).events = s.events ∧ (s.transmitPacket).management = s.management ∧
      (s.transmitPacket).pending = s.pending := by
  unfold State.transmitPacket; (repeat' split) <;> simp

@[simp] theorem State.tick_frame (s : State) :
    (s.tick).port = s.port ∧ (s.tick).regions = s.regions ∧ (s.tick).tracker = s.tracker ∧
      (s.tick).memory = s.memory ∧ (s.tick).patrol = s.patrol ∧ (s.tick).history = s.history ∧
      (s.tick).retirement = s.retirement ∧ (s.tick).management = s.management ∧ (s.tick).pending = s.pending :=
  ⟨rfl, rfl, rfl, rfl, rfl, rfl, rfl, rfl, rfl⟩

@[simp] theorem State.takeCommand_frame (rest : List Command) (s : State) :
    (s.takeCommand rest).regions = s.regions ∧ (s.takeCommand rest).tracker = s.tracker ∧
      (s.takeCommand rest).memory = s.memory ∧ (s.takeCommand rest).patrol = s.patrol ∧
      (s.takeCommand rest).history = s.history ∧ (s.takeCommand rest).retirement = s.retirement ∧
      (s.takeCommand rest).events = s.events ∧ (s.takeCommand rest).management = s.management ∧
      (s.takeCommand rest).pending = s.pending :=
  ⟨rfl, rfl, rfl, rfl, rfl, rfl, rfl, rfl, rfl⟩

end Sys2Proof.Machine
end

