-- ==== Sys2Proof/Laws/Settle.lean ====
section
/-! SUPPORT. What a step can do, said once: every command answers a next state, and a property that each of the bridge's
operations keeps is kept by every step (`keptByStep`). -/

namespace Sys2Proof.Machine

/-- A bridge that can take no step of its own is settled: the event is over. -/
theorem State.settle_of_quiet (s : State) (h : s.quiet = true) : s.settle = s.closeEvent := by
  have hn : s.nextOf Inner.inOrder = none := by simpa [State.quiet, State.nextInner] using h
  simp [State.settle, State.settleFor, hn]

/-- A bridge that can take no step of its own is as an arrival finds it, once the event is over. -/
theorem State.settleArrival_of_quiet (s : State) (h : s.quiet = true) : s.settleArrival = s.closeEvent := by
  have hn : s.nextOf (Inner.inOrder.filter fun i => !i.takesPacket) = none := by
    have h : s.nextOf Inner.inOrder = none := by simpa [State.quiet, State.nextInner] using h
    simp only [State.nextOf, List.find?_eq_none, List.mem_filter] at h ⊢
    exact fun i hi => h i hi.1
  simp [State.settleArrival, State.settleFor, hn]

/-- A property that some steps of the bridge's own keep is kept by taking as many of them as one likes. -/
theorem State.settleFor_keeps {P : State → Prop} {steps : List Inner}
    (h : ∀ i ∈ steps, ∀ s : State, i.enabled s = true → P s → P (i.run s)) (n : Nat) (s : State) (hs : P s) :
    P (s.settleFor steps n) := by
  induction n generalizing s with
  | zero => exact hs
  | succ n ih =>
    unfold State.settleFor
    split
    · rename_i i hi
      exact ih _ (h i (List.mem_of_find?_eq_some hi) s (by simpa using List.find?_some hi) hs)
    · exact hs

/-- What a fall finds differs from the state before by no region, no history entry and not in the management unit, nor in
the ingress queues and the credits owed: no packet has been served. -/
theorem State.settleArrival_keepsTables (s : State) :
    s.settleArrival.regions = s.regions ∧ s.settleArrival.history = s.history
      ∧ s.settleArrival.management = s.management ∧ s.settleArrival.port.commands = s.port.commands
      ∧ s.settleArrival.port.requests = s.port.requests ∧ s.settleArrival.port.link = s.port.link
      ∧ s.settleArrival.port.requestOwed = s.port.requestOwed
      ∧ s.settleArrival.port.managementOwed = s.port.managementOwed := by
  have h := State.settleFor_keeps (steps := Inner.inOrder.filter fun i => !i.takesPacket)
    (P := fun t => t.regions = s.regions ∧ t.history = s.history ∧ t.management = s.management
      ∧ t.port.commands = s.port.commands ∧ t.port.requests = s.port.requests ∧ t.port.link = s.port.link
      ∧ t.port.requestOwed = s.port.requestOwed ∧ t.port.managementOwed = s.port.managementOwed)
    (fun i hi t _ ht => by
      have hi : i.takesPacket = false := by simpa using (List.mem_filter.1 hi).2
      cases i <;> simp_all [Inner.run, Inner.takesPacket]) 1024 s ⟨rfl, rfl, rfl, rfl, rfl, rfl, rfl, rfl⟩
  simpa [State.settleArrival] using h

/-- The credits the partner holds are the same before and after: a packet that is taken from its queue is owed back. -/
structure RequesterPort.SameCredits (p q : RequesterPort) : Prop where
  link : q.link = p.link
  requests : q.requests.length + q.requestOwed = p.requests.length + p.requestOwed
  commands : q.commands.length + q.managementOwed = p.commands.length + p.managementOwed

/-- A management command, whichever it is, leaves the requester port to the management unit. -/
theorem commandOf_port (k : Nat) (c : Command) (f : State → Reply) (h : commandOf k c = some f) (s : State) :
    (f s).state.port = s.port := by
  unfold commandOf at h
  split at h <;> cases h
  all_goals
    simp only [regionDefine, regionModify, regionState, regionRemove, regionQuery, patrolSet, fillStart, fillStop,
      historyQuery, historyClear, spareSet, spareMark, spareQuery, retireLine, retireCancel, retireLoad, retireQuery,
      timeoutSet, eventGrant, managerSet, freeze, deviceQuery, refuse, done, started]
    (repeat' split)
    all_goals simp [State.boundsChanged, State.regionRemoved, State.startFill, State.setFill, State.cancelRetire,
      State.loadRetired, State.changeManager]

/-- No step of the bridge's own changes the credits the partner holds. -/
theorem Inner.run_sameCredits (i : Inner) (s : State) : s.port.SameCredits (i.run s).port := by
  cases i
  case acceptance =>
    show s.port.SameCredits s.acceptance.port
    unfold State.acceptance State.decideRequest
    (repeat' split) <;> constructor <;> simp_all [State.takeRequest, State.refuseRequest] <;> omega
  case command =>
    show s.port.SameCredits s.serveCommand.port
    unfold State.serveCommand
    split
    · rename_i c rest h
      have hp : ((s.takeCommand rest).process c).state.port = (s.takeCommand rest).port := by
        unfold State.process
        (repeat' split)
        · exact commandOf_port _ _ _ ‹_› _
        · rfl
        · rfl
      constructor
      all_goals simp only [Reply.send, State.handCredit_port, State.hand_port, hp, h]
      · rfl
      · rfl
      · simp only [State.takeCommand, List.length_cons]
        omega
    · exact ⟨rfl, rfl, rfl⟩
  all_goals constructor <;> simp [Inner.run]

/-- Settling leaves the link as it is, and the credits the partner holds. -/
theorem State.settle_sameCredits (s : State) : s.port.SameCredits s.settle.port := by
  have h := State.settleFor_keeps (steps := Inner.inOrder) (P := fun t => s.port.SameCredits t.port)
    (fun i _ t _ ht =>
      have r := i.run_sameCredits t
      ⟨r.link.trans ht.link, r.requests.trans ht.requests, r.commands.trans ht.commands⟩) 1024 s ⟨rfl, rfl, rfl⟩
  simpa [State.settle] using h

/-- A request that arrives with a credit finds the bridge settled, and itself within the grant. -/
theorem State.requestFinds_of_credit (s : State) (hl : s.port.link = .up)
    (hc : s.port.requests.length + s.port.requestOwed < 40) : s.requestFinds = s.settle
      ∧ s.settle.port.link = .up ∧ s.settle.port.requests.length + s.settle.port.requestOwed < 40 :=
  have h := s.settle_sameCredits
  ⟨if_pos ⟨hl, hc⟩, h.link.trans hl, h.requests ▸ hc⟩

/-- A command that arrives with a credit finds the bridge settled, and itself within the grant. -/
theorem State.commandFinds_of_credit (s : State) (hl : s.port.link = .up)
    (hc : s.port.commands.length + s.port.managementOwed < 8) : s.commandFinds = s.settle
      ∧ s.settle.port.link = .up ∧ s.settle.port.commands.length + s.settle.port.managementOwed < 8 :=
  have h := s.settle_sameCredits
  ⟨if_pos ⟨hl, hc⟩, h.link.trans hl, h.commands ▸ hc⟩

/-- Where none of the steps that go before a step can be taken, its row acts on the state as it is. -/
theorem State.settleBefore_of_none (s : State) (i : Inner) (h : s.nextOf i.before = none) : s.settleBefore i = s := by
  simp [State.settleBefore, State.settleFor, h]

/-- Before the step that comes next there is none to take. -/
theorem State.settleBefore_of_next (s : State) (i : Inner) (h : s.nextInner = some i) : s.settleBefore i = s := by
  have none_before (p : Inner → Bool) (l : List Inner) (h : l.find? p = some i) :
      (l.takeWhile fun j => decide (j ≠ i)).find? p = none := by
    induction l with
    | nil => rfl
    | cons j js ih =>
      by_cases hj : j = i
      · simp [hj]
      · cases hp : p j
        · simpa [hj, hp] using ih (by simpa [hp] using h)
        · exact absurd (by simpa [hp] using h) hj
  exact s.settleBefore_of_none i (none_before _ _ h)

/-- In a state whose earlier steps are enabled as in a quiet one there is none of them to take. -/
theorem State.settleBefore_of_quiet {s t : State} (i : Inner) (h : s.quiet = true)
    (same : ∀ j ∈ i.before, j.enabled t = j.enabled s) : t.settleBefore i = t := by
  refine t.settleBefore_of_none i (List.find?_eq_none.2 fun j hj => ?_)
  have all : ∀ k ∈ Inner.inOrder, ¬Inner.enabled s k = true :=
    List.find?_eq_none.1 (by simpa [State.quiet, State.nextInner, State.nextOf] using h)
  rw [same j hj]
  exact all j (by cases j <;> decide)

/-- Every command answers a next state: none faults and none is refused. -/
theorem exec_answers_next (i : Instr) (s : State) : ∃ t, exec i s = .next t := by
  cases i <;> exact ⟨_, rfl⟩

/-- Every step answers a next state. -/
theorem step_answers_next (s : State) : ∃ t, step s = .next t := by
  unfold step
  split
  · exact exec_answers_next _ _
  · exact ⟨_, rfl⟩

/-- The operations a step is made of, each keeping a property. -/
structure OperationsKeep (P : State → Prop) : Prop where
  closeEvent : ∀ s : State, P s → P s.closeEvent
  pending : ∀ (s : State) (q : List Instr), P s → P { s with pending := q }
  reset : ∀ (m : Fin 16) (q : List Instr),
    P { State.reset with management := { manager := m, frozen := false }, pending := q }
  ownershipPass : ∀ s : State, P s → P s.ownershipPass
  repairService : ∀ s : State, P s → P s.repairService
  fillIssue : ∀ s : State, P s → P s.fillIssue
  copyStart : ∀ s : State, P s → P s.copyStart
  acceptance : ∀ s : State, P s → P s.acceptance
  serveCommand : ∀ s : State, P s → P s.serveCommand
  issueGrant : ∀ s : State, P s → P s.issueGrant
  eventDelivery : ∀ s : State, P s → P s.eventDelivery
  requesterHello : ∀ s : State, P s → P s.requesterHello
  requesterFall : ∀ (w : Reason) (s : State), P s → P (s.requesterFall w)
  requestArrives : ∀ (q : Request) (s : State), P s → P (s.requestArrives q)
  commandArrives : ∀ (c : Command) (s : State), P s → P (s.commandArrives c)
  requesterBad : ∀ (k : Byte) (n : Nat) (s : State), P s → P (s.requesterBad k n)
  transmitPacket : ∀ s : State, P s → P s.transmitPacket
  memoryHello : ∀ (n : Byte) (k : BitVec 64) (s : State), P s → P (s.memoryHello n k)
  memoryLoss : ∀ (w : Reason) (s : State), P s → P (s.memoryLoss w)
  helloExpiry : ∀ s : State, P s → P s.helloExpiry
  memoryBad : ∀ (k : Byte) (n : Nat) (s : State), P s → P (s.memoryBad k n)
  sdata : ∀ (tag status : Byte) (l : StoredLine) (s : State), P s →
    P (s.completion .read tag status fun i e t => t.readTaken i e l)
  sdone : ∀ (tag status : Byte) (s : State), P s → P (s.completion .write tag status fun i e t => t.writeTaken i e)
  timeoutExpiry : ∀ (i : Fin 64) (s : State), P s → P (s.timeoutExpiry i)
  slotExpiry : ∀ s : State, P s → P s.slotExpiry
  tick : ∀ s : State, P s → P s.tick

theorem OperationsKeep.run {P : State → Prop} (h : OperationsKeep P) (i : Inner) (s : State) (hs : P s) :
    P (i.run s) := by
  cases i
  · exact h.eventDelivery s hs
  · exact h.ownershipPass s hs
  · exact h.repairService s hs
  · exact h.fillIssue s hs
  · exact h.copyStart s hs
  · exact h.acceptance s hs
  · exact h.issueGrant s hs
  · exact h.serveCommand s hs

theorem OperationsKeep.settle {P : State → Prop} (h : OperationsKeep P) (s : State) (hs : P s) : P s.settle :=
  h.closeEvent _ (State.settleFor_keeps (fun i _ t _ ht => h.run i t ht) _ s hs)

theorem OperationsKeep.settleArrival {P : State → Prop} (h : OperationsKeep P) (s : State) (hs : P s) :
    P s.settleArrival :=
  h.closeEvent _ (State.settleFor_keeps (fun i _ t _ ht => h.run i t ht) _ s hs)

theorem OperationsKeep.settleBefore {P : State → Prop} (h : OperationsKeep P) (i : Inner) (s : State) (hs : P s) :
    P (s.settleBefore i) := State.settleFor_keeps (fun j _ t _ ht => h.run j t ht) _ s hs

theorem OperationsKeep.requestFinds {P : State → Prop} (h : OperationsKeep P) (s : State) (hs : P s) :
    P s.requestFinds := by
  unfold State.requestFinds
  split
  · exact h.settle s hs
  · exact h.settleArrival s hs

theorem OperationsKeep.commandFinds {P : State → Prop} (h : OperationsKeep P) (s : State) (hs : P s) :
    P s.commandFinds := by
  unfold State.commandFinds
  split
  · exact h.settle s hs
  · exact h.settleArrival s hs

theorem OperationsKeep.serveIf {P : State → Prop} (h : OperationsKeep P) (p : Nat → Bool) (s : State) (hs : P s) :
    P (s.serveIf p) := by
  unfold State.serveIf
  split
  · split
    · exact h.serveCommand s hs
    · exact hs
  · exact hs

theorem OperationsKeep.idle {P : State → Prop} (h : OperationsKeep P) (s : State) (hs : P s) : P s.idle := by
  unfold State.idle
  (repeat' split)
  · exact h.run _ s hs
  · exact h.transmitPacket _ (h.closeEvent s hs)
  · exact h.timeoutExpiry _ _ (h.closeEvent s hs)
  · exact h.slotExpiry _ (h.closeEvent s hs)
  · exact h.helloExpiry _ (h.closeEvent s hs)
  · exact h.tick _ (h.closeEvent s hs)

/-- A property that the operations keep is kept by every command. -/
theorem OperationsKeep.command {P : State → Prop} (h : OperationsKeep P) (i : Instr) (s t : State) (hs : P s)
    (ht : Machine.exec i s = .next t) : P t := by
  have go : ∀ u : State, P u → Machine.exec i s = .next u → P t := by
    intro u hu e
    rw [ht] at e
    injection e with e
    exact e ▸ hu
  have hq := h.settle s hs
  have ha := h.settleArrival s hs
  cases i
  case coldReset p => exact go _ (h.reset _ _) rfl
  case requesterHello => exact go _ (h.requesterHello _ ha) rfl
  case requesterReset => exact go _ (h.requesterFall _ _ ha) rfl
  case requesterLossOfSignal => exact go _ (h.requesterFall _ _ ha) rfl
  case lread => exact go _ (h.requestArrives _ _ (h.requestFinds s hs)) rfl
  case lwrite => exact go _ (h.requestArrives _ _ (h.requestFinds s hs)) rfl
  case lmerge => exact go _ (h.requestArrives _ _ (h.requestFinds s hs)) rfl
  case mcmd => exact go _ (h.commandArrives _ _ (h.commandFinds s hs)) rfl
  case requesterBadPacket => exact go _ (h.requesterBad _ _ _ ha) rfl
  case acceptance => exact go _ (h.acceptance _ (h.settleBefore .acceptance s hs)) rfl
  case ownershipPass => exact go _ (h.ownershipPass s hs) rfl
  case issueGrant => exact go _ (h.issueGrant _ (h.settleBefore .issueGrant s hs)) rfl
  case transmitPacket => exact go _ (h.transmitPacket _ hq) rfl
  case memoryHello => exact go _ (h.memoryHello _ _ _ hq) rfl
  case memoryReset => exact go _ (h.memoryLoss _ _ hq) rfl
  case memoryLossOfSignal => exact go _ (h.memoryLoss _ _ hq) rfl
  case helloTimerExpiry => exact go _ (h.helloExpiry _ hq) rfl
  case memoryBadPacket => exact go _ (h.memoryBad _ _ _ hq) rfl
  case sdata => exact go _ (h.sdata _ _ _ _ hq) rfl
  case sdone => exact go _ (h.sdone _ _ _ hq) rfl
  case completionTimeoutExpiry => exact go _ (h.timeoutExpiry _ _ hq) rfl
  case slotTimerExpiry => exact go _ (h.slotExpiry _ hq) rfl
  case repairService => exact go _ (h.repairService s hs) rfl
  case fillIssue => exact go _ (h.fillIssue s hs) rfl
  case copyStart => exact go _ (h.copyStart s hs) rfl
  case eventDelivery => exact go _ (h.eventDelivery s hs) rfl
  all_goals exact go _ (h.serveIf _ _ (h.settleBefore .command s hs)) rfl

/-- A property that the operations keep is kept by every step. -/
theorem OperationsKeep.keptByStep {P : State → Prop} (h : OperationsKeep P) : KeptByStep P := by
  intro s t hs ht
  unfold step at ht
  split at ht
  · exact h.command _ _ t (h.pending s _ hs) ht
  · injection ht with ht
    exact ht ▸ h.idle s hs

end Sys2Proof.Machine
end

