-- ==== Sys2Proof/Tests/Slice0.lean ====
section
/-! SUPPORT. The model's own tests, all on small states, and for each statement a witness: a state and operands that meet
its hypotheses, with the values where its clauses meet. -/

namespace Sys2Proof.Tests

open Sys2Proof.Machine

set_option maxRecDepth 100000

/-! ### Small states -/

/-- Both links UP, four memory credits, a capacity of 256 lines. -/
def bridge : State :=
  { State.reset with
    port := { State.reset.port with link := .up }
    memory := { State.reset.memory with link := .up, capacity := some 256, announced := some 4, helloStart := none } }

/-- Requester 0 may read and write, requester 1 may read, requester 15 may do neither. -/
def someRights : Vector Rights 16 := (Vector.replicate 16 .readWrite |>.set 1 .read).set 15 .none

/-- A region of lines 16 to 31. -/
def someRegion (phase : RegionPhase) (mode : Mode) : Region :=
  { phase := phase, base := 16, limit := 31, rights := someRights, mode := mode, patrol := true, burst := 4
    threshold := 2, reportCorrections := true, reportPasses := true, fixed := false
    stats := { corrected := 0, uncorrectable := 0, void := 0, refused := 0 }, cursor := 16, passes := 0 }

/-- The bridge with that region at index 0. -/
def withRegion (phase : RegionPhase) (mode : Mode) : State := bridge.setRegion 0 (some (someRegion phase mode))

/-- The bridge with an ONLINE region. -/
def online : State := withRegion .online .correcting

/-- An entry for line 20 in region 0. -/
def someEntry (o : Origin) (phase : Phase) (writing : Bool) : Entry :=
  { origin := o, line := 20, physical := some 20, region := some 0, mode := some .correcting, data := none, mask := none
    phase := phase, writing := writing, finding := none }

/-- A ticket of requester 1. -/
def ticket (kind : Kind) (abandoned : Bool) : Ticket := { requester := 1, tag := 2, kind := kind, abandoned := abandoned }

/-- Tracker entry 0 holds `e`, alone in its line order. -/
def holding (e : Entry) (s : State) : State :=
  { s with tracker := { entries := s.tracker.entries.set 0 (some e), order := [0] } }

/-- Entry 0 awaits the completion of an operation issued at time 0. -/
def outstanding (op : MemoryOp) (e : Entry) (s : State) : State :=
  let t := holding e s
  { t with memory := { t.memory with records := [{ tag := 0, op := op, issued := 0, deadline := 20000 }] } }

/-- An entry waits for a credit. -/
def waiting (o : Origin) : State :=
  let t := holding (someEntry o .waitingIssue false) bridge
  { t with memory := { t.memory with waiting := [0] } }

/-- A request from requester 1 for line 20. -/
def someRequest (body : RequestBody) : Request := { requester := 1, tag := 2, line := 20, body := body }

/-- A request stands at the head of the request queue. -/
def asking (q : Request) (s : State) : State := { s with port := { s.port with requests := [q] } }

/-- An argument block with these bytes, the rest zero. -/
def block (bytes : List (Nat × Byte)) : ArgBlock :=
  Vector.ofFn fun i : Fin 40 => ((bytes.find? fun x => x.1 = i.val).map (·.2)).getD 0

/-- A command of the manager, requester 0, with these bytes in its block. -/
def command (bytes : List (Nat × Byte)) : Command := { requester := 0, tag := 7, block := block bytes }

/-- A command stands at the head of the management queue. -/
def told (k : Command) (s : State) : State := { s with port := { s.port with commands := [k] } }

/-- A spare area of four spares at line 128. -/
def spares (states : List SpareState) (s : State) : State :=
  { s with retirement := { s.retirement with area := some { base := 128, spares := states } } }

/-- Line 20 is retired to spare 2. -/
def retired : MapEntry :=
  { line := 20, spare := 2, state := .active, pending := none, auto := true, void := false, time := some 0 }

/-- A history entry for line 20. -/
def someHistory (retire : RetireState) : HistoryEntry :=
  { line := 20, region := 0, count := 1, symbol := 0, origin := .scan, updated := 0, retire := retire }

/-- A command that waits on a bridge at rest finds it as it is: no step goes before it. -/
theorem told_settleBefore (k : Command) (s : State) (h : s.quiet = true) :
    (told k s).settleBefore .command = told k s :=
  State.settleBefore_of_quiet _ h fun j hj => by cases j <;> first | rfl | exact absurd hj (by decide)

/-- A request that waits on a bridge at rest finds it as it is. -/
theorem asking_settleBefore (q : Request) (s : State) (h : s.quiet = true) :
    (asking q s).settleBefore .acceptance = asking q s :=
  State.settleBefore_of_quiet _ h fun j hj => by cases j <;> first | rfl | exact absurd hj (by decide)

/-- The command at the head, whatever its bytes, is one of the statements' `AtHead`, and finds the bridge as it is. -/
theorem atHead (code : Nat) (k : Command) (s : State) (hq : s.quiet = true) (hk : argCode k.block = code)
    (hm : k.requester.toNat = s.management.manager.val) :
    ((told k s).settleBefore .command).AtHead code k [] ∧ (told k s).settleBefore .command = told k s :=
  ⟨(told_settleBefore k s hq).symm ▸ ⟨rfl, hk, decide_eq_true hm⟩, told_settleBefore k s hq⟩

/-- What a settled state takes, it takes after settling. -/
theorem takes_settled {s : State} {op : MemoryOp} {tag : Byte} {i : Fin 64} {e : Entry} (h : s.quiet = true)
    (t : s.Takes op tag i e) : s.settle.Takes op tag i e := by
  rw [s.settle_of_quiet h]
  exact ⟨t.link, t.record, t.entry, t.waits⟩

/-! ### Well-formed commands -/

theorem test_goodPacketIsNoBadPacket : (Instr.requesterBadPacket 0x01 16).WellFormed = false := by decide
theorem test_badLengthIsBad : (Instr.requesterBadPacket 0x01 17).WellFormed = true := by decide
theorem test_unknownKindIsBad : (Instr.requesterBadPacket 0x31 80).WellFormed = true := by decide
theorem test_goodCompletionIsNoBadPacket : (Instr.memoryBadPacket 0x31 80).WellFormed = false := by decide
theorem test_badCompletionLengthIsBad : (Instr.memoryBadPacket 0x31 79).WellFormed = true := by decide

/-! ### Packets -/

/-- An LREAD written out from R182: kind, requester 3, tag 9, line 0x04030201. -/
theorem test_frameLread :
    requesterFrame [0x01, 3, 9, 0, 0, 0, 0, 0, 0x01, 0x02, 0x03, 0x04, 0, 0, 0, 0] = .lread 3 9 0x04030201 := by decide
theorem test_frameHello : requesterFrame [0x08, 0, 0, 0, 0, 0, 0, 0] = .requesterHello := by decide
theorem test_frameReset : requesterFrame [0x09, 0, 0, 0, 0, 0, 0, 0] = .requesterReset := by decide
theorem test_frameShort : requesterFrame [0x01, 3, 9] = .requesterBadPacket 0x01 3 := by decide
theorem test_frameMemoryHello :
    memoryFrame [0x08, 0, 0, 0, 0, 0, 0, 0, 64, 0, 0, 0, 0, 1, 0, 0, 0, 0, 0, 0] = .memoryHello 64 256 := by decide
theorem test_frameSdone : memoryFrame [0x32, 0, 5, 0, 0, 0, 0, 0] = .sdone 5 0 := by decide

/-- A CREDIT with two request credits and one management credit, written out from R182. -/
theorem test_creditBytes :
    ({ packet := .credit, requestCredits := 2, managementCredits := 1 } : SentPacket).bytes
      = [0x16, 0, 0, 0, 0, 2, 1, 0] := by decide

/-- An SREAD for line 0x00000114 under tag 3. -/
theorem test_sreadBytes :
    (MemoryPacket.sread 3 0x114).bytes = [0x21, 0, 3, 0, 0, 0, 0, 0, 0x14, 0x01, 0, 0, 0, 0, 0, 0] := by decide

/-! ### One step at a time -/

theorem test_coldResetTakesTheStraps (s : State) :
    exec (.coldReset { a := true, b := false, c := true, d := false }) s
      = .next { State.reset with management := { manager := 5, frozen := false }, pending := s.pending } := rfl
theorem test_idleTicks : step bridge = .next { bridge with events := { bridge.events with time := 1 } } := rfl
theorem test_lreadJoins :
    exec (.lread 1 2 20) bridge = .next { bridge with port := { bridge.port with requests := [someRequest .read] } } :=
  rfl
theorem test_noSlotBeforeThePeriod : exec .slotTimerExpiry bridge = .next bridge := rfl
theorem test_unmatchedCompletion :
    exec (.sdone 64 0) bridge
      = .next (bridge.raise { kind := .unmatchedCompletion, count := some 64, reason := some .noOperation }) := rfl
theorem test_unknownCommandIsRefused :
    exec .unknownCommand (told (command [(0, 23)]) bridge) = .next
      { bridge with port :=
          { bridge.port with
            managementOwed := 1
            transmit := [.mresp 0 7 23 (.refused .unknownCommand) .empty] } } := rfl


/-- A command that waits when the requester link falls is discarded unapplied (R22, R181). -/
theorem test_resetDiscardsACommand :
    let s := told (command [(0, 4)]) (withRegion .offline .correcting)
    ∃ u, exec .requesterReset s = .next u ∧ u.region 0 = some (someRegion .offline .correcting)
      ∧ u.port.commands = [] ∧ u.port.link = .down ∧ u.events.queue.length = 1 := ⟨_, rfl, rfl, rfl, rfl, rfl⟩

/-- A HELLO of a wrong length is taken while the link is DOWN and is a violation while it is UP (R175, R178). -/
theorem test_longHello :
    exec (.requesterBadPacket 0x08 9) State.reset = exec .requesterHello State.reset
    ∧ ∃ u, exec (.requesterBadPacket 0x08 9) bridge = .next u ∧ u.port.link = .down := ⟨rfl, _, rfl, rfl⟩

/-- A merge between its phases at index 0 that had corrected line 20, and a scan of the line behind it at index 7. -/
def betweenPhases : State :=
  let merge := { someEntry (.requester (ticket .merge false)) .waitingIssue true with finding := some (.corrected 3) }
  let scan := someEntry .scan .waitingLine false
  { online with
    tracker := { entries := (online.tracker.entries.set 0 (some merge)).set 7 (some scan), order := [0, 7] }
    memory := { online.memory with waiting := [0], announced := some 0 } }

/-- The reset ends the merge and makes a repair of its line at index 0; the scan becomes owner (R64, R99). -/
theorem test_resetOffersAndServes :
    ∃ u, exec .requesterReset betweenPhases = .next u ∧ (u.entry 0).map (·.origin) = some .repair
      ∧ u.patrol.repairQueue = [] ∧ u.tracker.order = [7, 0] ∧ u.settle.memory.waiting = [7] :=
  ⟨_, rfl, rfl, rfl, rfl, rfl⟩

/-- Entries that join the waiting order at one event stand in it by index, behind the earlier ones (R76). -/
theorem test_joinInOrderOfIndex :
    (((bridge.memory.join 9).join 7).join 2).waiting = [2, 7, 9]
    ∧ (({ bridge.memory.join 9 with joined := [] }.join 7).join 2).waiting = [9, 2, 7] := by decide

/-- An entry that a free credit awaits is issued before a command can change MTIMEOUT (R76, R77): a request and a
TIMEOUT_SET of 100 that wait together, and the row of a TIMEOUT_SET that finds an entry waiting. -/
theorem test_issueGoesBeforeTimeoutSet :
    let timeoutSet := command [(0, 18), (12, 100)]
    let both := (told timeoutSet (asking (someRequest .read) online)).settle
    both.memory.mtimeout = 100 ∧ both.memory.records.map (·.deadline) = [20000]
    ∧ ∃ u, exec .timeoutSet (told timeoutSet (waiting .scan)) = .next u
      ∧ u.memory.mtimeout = 100 ∧ u.memory.records.map (·.deadline) = [20000] := ⟨rfl, rfl, _, rfl, rfl, rfl⟩

/-- An EVENT_GRANT hands the queued record over before the MANAGER_SET behind it takes the credits away (R156, R158). -/
theorem test_grantDeliversBeforeManagerSet :
    let s := bridge.raise { kind := .fillDone }
    let grant := command [(0, 19), (4, 1)]
    let managerSet := command [(0, 20), (4, 3)]
    let u := ({ s with port := { s.port with commands := [grant, managerSet] } } : State).settle
    u.port.transmit.map OutPacket.length = [160, 40, 160] ∧ u.events.queue.length = 1 ∧ u.management.manager = 3 :=
  ⟨rfl, rfl, rfl⟩

/-- Forty refused requests lose no record while the manager has credits: each is delivered as it is raised (R156). -/
theorem test_refusalsLoseNoEvent :
    let s : State :=
      { bridge with
        port := { bridge.port with requests := List.replicate 40 (someRequest .read) }
        events := { bridge.events with credits := 32 } }
    s.settle.events.lost = 0 ∧ s.settle.events.queue.length = 8 ∧ s.settle.port.transmit.length = 72 := by decide

/-! ### Witnesses: the machine and the requester link -/

theorem witness_StepTakesTheFrontCommand :
    ({ bridge with pending := [.acceptance, .freeze] } : State).pending = .acceptance :: [.freeze] := rfl

/-- Each step of the bridge's own is the next one in some state. -/
theorem witness_IdleBridgeActsByItself :
    (holding (someEntry .scan .waitingLine false) bridge).nextInner = some .ownershipPass
    ∧ ({ bridge with patrol := { bridge.patrol with repairQueue := [20] } } : State).nextInner = some .repairService
    ∧ (bridge.setFill (some { phase := .issuing, region := 0, cursor := some 16, watermark := some 16
                              outstanding := [], unwritten := [], failed := none })).nextInner = some .fillIssue
    ∧ ({ bridge with retirement :=
        { bridge.retirement with queue := [{ line := 20, origin := .auto, spare := 0 }] } } : State).nextInner
          = some .copyStart
    ∧ (asking (someRequest .read) bridge).nextInner = some .acceptance
    ∧ (told (command [(0, 22)]) bridge).nextInner = some .command
    ∧ (let t := holding (someEntry .scan .waitingIssue false) bridge;
        ({ t with memory := { t.memory with waiting := [0] } } : State).nextInner = some .issueGrant)
    ∧ (let t := bridge.raise { kind := .fillDone };
        ({ t with events := { t.events with credits := 1 } } : State).nextInner = some .eventDelivery)
    ∧ bridge.nextInner = none ∧ bridge.quiet = true ∧ bridge.pending = [] := by
  refine ⟨?_, ?_, ?_, ?_, ?_, ?_, ?_, ?_, ?_, ?_, ?_⟩ <;> rfl

/-- The four things a bridge with no step of its own may do, and the fifth, to let time pass. -/
theorem witness_IdleBridgeClock :
    (bridge.hand .credit).nextInner = none ∧ (bridge.hand .credit).port.transmit ≠ []
    ∧ (let t := outstanding .read (someEntry .scan .awaitingData false) bridge;
        let u : State := { t with events := { t.events with time := 20000 } };
        u.nextInner = none ∧ u.port.transmit = [] ∧ u.firstExpiring = some 0)
    ∧ (let u : State := { bridge with events := { bridge.events with time := 1000 } };
        u.nextInner = none ∧ u.firstExpiring = none ∧ u.slotDue = true)
    ∧ (let u : State :=
        { State.reset with
          patrol := { State.reset.patrol with slotPeriod := 100000 }
          events := { State.reset.events with time := 1000 } };
        u.nextInner = none ∧ u.slotDue = false ∧ u.helloDue = true ∧ u.memory.link = .down)
    ∧ bridge.slotDue = false ∧ bridge.helloDue = false ∧ bridge.firstExpiring = none := by decide

theorem witness_RequesterLink :
    State.reset.settleArrival.port.link = .down ∧ bridge.settleArrival.port.link = .up
    ∧ (let full : State := { bridge with port := { bridge.port with requestOwed := 39, managementOwed := 7 } };
        full.port.link = .up ∧ full.port.requests.length + full.port.requestOwed = 39
        ∧ full.port.commands.length + full.port.managementOwed = 7)
    ∧ (let full : State := { bridge with port := { bridge.port with requestOwed := 40, managementOwed := 8 } };
        full.settleArrival.port.link = .up ∧ full.port.requests.length + full.port.requestOwed = 40
        ∧ full.port.commands.length + full.port.managementOwed = 8)
    ∧ requesterLength 0x05 = none ∧ requesterLength 0x01 = some 16 ∧ 16 ≠ 17 ∧ (0x09 : Byte) ≠ 0x08 := by
  refine ⟨rfl, rfl, ⟨rfl, rfl, rfl⟩, ⟨rfl, rfl, rfl⟩, rfl, rfl, by decide, by decide⟩

/-- The fields of packets at the ends of their ranges. -/
theorem witness_SentPacketsHaveTheirFixedLayout :
    statusTable[11]? = some .malformed ∧ refusalTable[9]? = some .unknownCommand ∧ kindTable[28]? = some .eventsLost
    ∧ originTable[7]? = some .merge ∧ reasonTable[41]? = some .requesterNoManagementCredit
    ∧ ((List.replicate 8 (0, retired)).length ≤ 8 ∧ (List.replicate 8 (0, retired))[7]? = some (0, retired)) :=
  ⟨rfl, rfl, rfl, rfl, rfl, by simp, rfl⟩

theorem witness_TransmitSendsTheFrontWithItsCredits :
    (bridge.hand .credit).settle.port.transmit = [.credit] ∧ (bridge.hand .credit).settle.port.link = .up
    ∧ OutPacket.credit ≠ .hello
    ∧ (bridge.hand .hello).settle.port.transmit = [.hello] ∧ (bridge.hand .hello).settle.port.link = .up
    ∧ bridge.settle.port.transmit = [] ∧ State.reset.settle.port.link = .down := by
  refine ⟨rfl, rfl, by decide, rfl, rfl, rfl, rfl⟩

theorem witness_ArrivingPacketsAreReadBackAsSent :
    requesterBytes .requesterHello = some [0x08, 0, 0, 0, 0, 0, 0, 0]
    ∧ memoryBytes (.sdone 5 0) = some [0x32, 0, 5, 0, 0, 0, 0, 0] := by decide

/-! ### Witnesses: acceptance, ownership and issue -/

/-- A table of one region is in order. -/
theorem oneRegion_sound (phase : RegionPhase) (mode : Mode) : (withRegion phase mode).RegionsSound := by
  have only : ∀ i r, (withRegion phase mode).region i = some r → i = 0 ∧ r = someRegion phase mode := by
    intro i r h
    rw [withRegion, State.region_setRegion] at h
    split at h
    · exact ⟨by simp_all, by simp_all⟩
    · have : bridge.region i = none := by simp [bridge, State.region, State.reset]
      simp [this] at h
  refine ⟨fun i r h => ?_, fun i j ri rj l h k _ _ => ?_, fun i r a l _ h => ?_⟩
  · obtain ⟨_, rfl⟩ := only i r h
    exact ⟨(by decide : (16 : Nat) ≤ 31), (by decide : 1 ≤ 4 ∧ 4 ≤ 16), (by decide : 2 ≤ 15),
      (by decide : (16 : Nat) ≤ 16 ∧ 16 ≤ 31)⟩
  · rw [(only i ri h).1, (only j rj k).1]
  · simp [withRegion, bridge, State.reset] at h

/-- A fill whose watermark stands at line 20. -/
def filling : State :=
  (withRegion .filling .correcting).setFill (some
    { phase := .issuing, region := 0, cursor := none, watermark := some 20, outstanding := [20], unwritten := []
      failed := none })

theorem witness_RegionDecisionTakesTheFirstCheckThatApplies :
    online.RegionsSound ∧ filling.RegionsSound ∧ (withRegion .offline .correcting).RegionsSound
    ∧ (∀ i : Fin 32, (online.region i).all fun r => !r.contains 15 && !r.contains 32)
    ∧ (∃ r, online.region 0 = some r ∧ r.contains 16 = true ∧ r.contains 31 = true ∧ r.phase = .online
      ∧ r.rights[0] = .readWrite ∧ r.rights[1] = .read ∧ r.rights[15] = .none)
    ∧ (∃ r f, filling.region 0 = some r ∧ r.phase = .filling ∧ filling.patrol.fill = some f ∧ f.region = 0
      ∧ f.watermark = some 20 ∧ (20 : LineNo).toNat ≤ (20 : LineNo).toNat ∧ ¬(20 : LineNo).toNat ≤ (19 : LineNo).toNat)
    ∧ (∃ r, (withRegion .offline .correcting).region 0 = some r ∧ r.phase = .offline) := by
  refine ⟨oneRegion_sound _ _, ?_, oneRegion_sound _ _, by decide, ⟨_, rfl, by decide⟩, ⟨_, _, rfl, rfl, rfl, by decide⟩,
    ⟨_, rfl, rfl⟩⟩
  obtain ⟨a, b, k⟩ := oneRegion_sound .filling .correcting
  exact ⟨a, b, k⟩

/-- A request that is in order, on a bridge whose tracker is empty. -/
theorem neitherBadNorHeld : ¬(someRequest .read).Bad ∧ ¬(asking (someRequest .read) online).Holds (someRequest .read) := by
  constructor
  · rintro (h | h | ⟨d, h⟩)
    · exact absurd h (by decide)
    · exact absurd h (by decide)
    · exact absurd h (by simp [someRequest])
  · rintro ⟨i, e, t, h, _⟩
    simp [asking, online, withRegion, bridge, State.entry, State.setRegion, State.reset] at h

theorem witness_AcceptanceAdmitsTheHeadAsAnEntry :
    let q := someRequest .read
    let s := asking q online
    s.settleBefore .acceptance = s
    ∧ q.requester.toNat < 16 ∧ q.tag.toNat < 64 ∧ s.port.requests = q :: [] ∧ s.slotFor .requester = some 0
    ∧ ¬q.Bad ∧ s.memory.link = .up ∧ ¬s.Holds q
    ∧ s.decideRegion q.requester q.body.kind q.line = .admitted 0 .correcting
    ∧ s.lineOrder q.line = [] ∧ s.decideRegion 0 .merge q.line = .admitted 0 .correcting := by
  refine ⟨asking_settleBefore _ _ rfl, by decide, by decide, rfl, rfl, neitherBadNorHeld.1, rfl, neitherBadNorHeld.2,
    rfl, rfl, rfl⟩

theorem witness_AcceptanceAnswersARefusedHead :
    ({ someRequest .read with requester := 16 } : Request).Bad ∧ ({ someRequest .read with tag := 64 } : Request).Bad
    ∧ (someRequest (.merge 0 zeroData)).Bad
    ∧ ¬(someRequest .read).Bad ∧ ¬(asking (someRequest .read) online).Holds (someRequest .read)
    ∧ State.reset.memory.link = .down
    ∧ (outstanding .read (someEntry (.requester (ticket .read false)) .awaitingData false) online).Holds
        (someRequest .read)
    ∧ online.decideRegion 1 .read 32 = .unmapped ∧ online.decideRegion 1 .write 20 = .denied 0
    ∧ filling.decideRegion 1 .read 20 = .notReady
    ∧ (withRegion .offline .correcting).decideRegion 1 .read 20 = .offline
    ∧ (asking (someRequest .read) online).port.requests = someRequest .read :: []
    ∧ (asking (someRequest .read) online).slotFor .requester = some 0
    ∧ (∀ q, (asking q online).settleBefore .acceptance = asking q online
      ∧ (asking q filling).settleBefore .acceptance = asking q filling
      ∧ (asking q (withRegion .offline .correcting)).settleBefore .acceptance = asking q (withRegion .offline .correcting)
      ∧ (let s := outstanding .read (someEntry (.requester (ticket .read false)) .awaitingData false) online;
        (asking q s).settleBefore .acceptance = asking q s)
      ∧ (asking q State.reset).settleBefore .acceptance = asking q State.reset) := by
  refine ⟨.inl (by decide), .inr (.inl (by decide)), .inr (.inr ⟨_, rfl⟩), neitherBadNorHeld.1,
    neitherBadNorHeld.2, rfl, ⟨0, _, _, rfl, by decide, rfl, by decide, by decide⟩, rfl, rfl, rfl, rfl, rfl, rfl,
    fun q => ⟨asking_settleBefore q _ rfl, asking_settleBefore q _ rfl, asking_settleBefore q _ rfl,
      asking_settleBefore q _ rfl, asking_settleBefore q _ rfl⟩⟩

/-- A copy of line 20 waits for its line. -/
def copying (map : List MapEntry) : State :=
  let t := spares [.free, .reserved, .inUse, .free] (holding (someEntry .copy .waitingLine false) bridge)
  { t with retirement :=
      { t.retirement with map := map, copy := some { line := 20, origin := .auto, spare := 1, void := false } } }

theorem witness_OwnershipPassesToTheHeadOfALineOrder :
    let s := holding (someEntry .scan .waitingLine false) bridge
    s.entry 0 = some (someEntry .scan .waitingLine false) ∧ (s.lineOrder 20).head? = some 0
    ∧ (∀ j : Fin 64, j < 0 → s.passable j = false) ∧ Origin.scan ≠ .copy
    ∧ (copying [retired]).retirement.entry 20 = some retired ∧ retired.state = .active
    ∧ (copying [retired]).retirement.area.isSome ∧ (copying [retired]).retirement.entry 21 = none := by
  refine ⟨rfl, rfl, by decide, by decide, rfl, rfl, rfl, rfl⟩

/-- An order with two entries of this event among which a third joins. -/
theorem witness_JoinTheWaitingOrder :
    let m : MemoryPort := { bridge.memory with waiting := [5, 2, 9], joined := [9, 2] }
    m.waiting = [5] ++ [2, 9] ∧ (∀ j ∈ [(5 : Fin 64)], j ∉ m.joined) ∧ (∀ j ∈ [(2 : Fin 64), 9], j ∈ m.joined)
    ∧ [(2 : Fin 64), 9].Pairwise (· < ·) ∧ (7 : Fin 64) ∉ [(2 : Fin 64), 9] ∧ (m.join 7).waiting = [5, 2, 7, 9] := by
  decide

theorem witness_CopyOwnershipPreparesTheMap :
    (copying []).entry 0 = some (someEntry .copy .waitingLine false)
    ∧ ((copying []).lineOrder 20).head? = some 0 ∧ (∀ j : Fin 64, j < 0 → (copying []).passable j = false)
    ∧ ((copying []).retirement.copy.map (·.line)) = some 20
    ∧ (copying []).retirement.entry 20 = none
    ∧ ((copying [retired]).lineOrder 20).head? = some 0
    ∧ (copying [retired]).retirement.area.isSome ∧ (copying [retired]).retirement.entry 20 = some retired := by
  refine ⟨rfl, rfl, by decide, rfl, rfl, rfl, rfl, rfl⟩

theorem witness_IssueGrantSendsTheOperation :
    (waiting .copy).settleBefore .issueGrant = waiting .copy
    ∧ (waiting .scan).settleBefore .issueGrant = waiting .scan ∧ bridge.settleBefore .issueGrant = bridge
    ∧ (waiting .copy).memory.link = .up ∧ (waiting .copy).memory.records.length < (waiting .copy).memory.announced.getD 0
    ∧ (waiting .copy).memory.waiting.find? (waiting .copy).isCopy = some 0
    ∧ (∀ j ∈ (waiting .scan).memory.waiting, (waiting .scan).isCopy j = false)
    ∧ (waiting .scan).memory.waiting.head? = some 0
    ∧ State.reset.memory.link = .down ∧ bridge.memory.waiting = []
    ∧ (let t := outstanding .read (someEntry .scan .awaitingData false) bridge;
        ({ t with memory := { t.memory with announced := some 1 } } : State).memory.announced.getD 0
          ≤ t.memory.records.length) := by
  refine ⟨State.settleBefore_of_next _ _ rfl, State.settleBefore_of_next _ _ rfl, State.settleBefore_of_none _ _ rfl, rfl,
    by decide, rfl, by decide, rfl, rfl, rfl, by decide⟩


/-! ### Witnesses: the memory link -/

/-- A bridge whose memory link has fallen. -/
def fallen (s : State) : State := { s with memory := { s.memory with link := .down, helloStart := some 0 } }

theorem witness_ValidMemoryHelloTakesTheLinkUp :
    State.reset.settle.memory.link = .down
    ∧ 1 ≤ (1 : Byte).toNat ∧ (64 : Byte).toNat ≤ 64 ∧ 1 ≤ (1 : BitVec 64).toNat
    ∧ (4294967296 : BitVec 64).toNat ≤ 4294967296
    ∧ State.reset.settle.retirement.area = none
    ∧ (let s := spares [.free, .free] State.reset;
        s.settle.memory.link = .down
        ∧ ∃ a, s.settle.retirement.area = some a ∧ ¬(130 : BitVec 64).toNat < a.base.toNat + a.spares.length
          ∧ (129 : BitVec 64).toNat < a.base.toNat + a.spares.length) := by
  refine ⟨rfl, by decide, by decide, by decide, by decide, rfl, rfl, ⟨_, rfl, by decide, by decide⟩⟩

theorem witness_MemoryPortHellosAndErrors :
    bridge.settle.memory.link = .up ∧ State.reset.settle.memory.link = .down
    ∧ ¬(1 ≤ (0 : Byte).toNat) ∧ ¬((65 : Byte).toNat ≤ 64) ∧ ¬(1 ≤ (0 : BitVec 64).toNat)
    ∧ ¬((4294967297 : BitVec 64).toNat ≤ 4294967296)
    ∧ memoryLength 0x01 = none ∧ memoryLength 0x31 = some 80 ∧ 80 ≠ 79
    ∧ State.reset.settle.memory.helloStart = some 0
    ∧ (let s : State := { State.reset with events := { State.reset.events with time := 1000 } };
        s.settle.memory.link = .down ∧ s.settle.memory.helloStart = some 0
        ∧ 1000 ≤ (s.settle.events.time - 0).toNat)
    ∧ (let s : State := { State.reset with events := { State.reset.events with time := 999 } };
        s.settle.memory.helloStart = some 0 ∧ (s.settle.events.time - 0).toNat < 1000) := by
  refine ⟨rfl, rfl, by decide, by decide, by decide, by decide, rfl, rfl, by decide, rfl, ⟨rfl, rfl, ?_⟩, ⟨rfl, ?_⟩⟩
  · exact (by decide : 1000 ≤ ((1000 : Time) - 0).toNat)
  · exact (by decide : ((999 : Time) - 0).toNat < 1000)

theorem witness_MemoryLossEndsEveryEntry :
    bridge.settle.memory.link = .up ∧ bridge.settle.copyEntry = none ∧ State.reset.settle.memory.link = .down := by
  refine ⟨rfl, rfl, rfl⟩

/-- What an SWRITE carries: each kind of entry that writes. -/
theorem witness_StoredLines :
    (∃ e : Entry, e = { someEntry .fill .waitingIssue true with data := some zeroData } ∧ e.data = some zeroData
      ∧ e.origin = .fill)
    ∧ (∃ e : Entry, e = { someEntry .scan .waitingIssue true with finding := some .uncorrectable }
      ∧ e.origin = .scan ∧ e.finding = some .uncorrectable)
    ∧ (some (Finding.corrected 3) ≠ some .uncorrectable) ∧ some Finding.clean ≠ some .void := by
  exact ⟨⟨_, rfl, rfl, rfl⟩, ⟨_, rfl, rfl, rfl⟩, by decide, by decide⟩

/-! ### Witnesses: completions -/

/-- A line one off a valid one is corrected. -/
theorem corrected_of_oneOff {l : StoredLine} {p : Fin 72} {d : Data} (h : OneOff l p d) :
    (classify l).1 = .corrected p := by
  simp [classify, h.not_valid, h.not_void, findCorrection_of_oneOff h]

/-- A line far from every valid one and from the void form is not corrected. -/
theorem uncorrectable_of_far {l : StoredLine} (h : ∀ d, 2 ≤ symbolDistance l (encodeLine d)) (hv : l ≠ voidForm) :
    (classify l).1 = .uncorrectable := by
  have far := not_oneOff_of_far h
  simp [classify, far.1, hv, findCorrection_of_none far.1 far.2]

/-- Every class of line, whatever the code. -/
theorem someLine_classified :
    (classify (encodeLine zeroData)).1 = .clean ∧ (classify voidForm).1 = .void
    ∧ (∃ l, (classify l).1 = .corrected 0) ∧ ∃ l, (classify l).1 = .uncorrectable := by
  refine ⟨?_, ?_, ?_, ?_⟩
  · simp [classify, (isValid_iff (encodeLine zeroData)).2 ⟨zeroData, rfl⟩]
  · simp [classify, isValid_voidForm]
  · obtain ⟨v, hv⟩ : ∃ v : Byte, v ≠ (encodeLine zeroData)[0] := ⟨~~~(encodeLine zeroData)[0], by
      generalize (encodeLine zeroData)[0] = x
      revert x
      decide⟩
    exact ⟨_, corrected_of_oneOff (OneOff.of_set zeroData 0 v hv)⟩
  · have blank := Config.checkBytes_lawful.blank_far 0xFF (.inr rfl)
    refine ⟨Vector.replicate 72 0xFF, uncorrectable_of_far (fun d => ?_) fun e => ?_⟩
    · have := blank.1 d
      simp only [encodeLine]
      omega
    · have := blank.2
      rw [e, voidForm, symbolDistance_self] at this
      omega

/-- The read of a requester's READ is outstanding. -/
def reading (mode : Mode) (abandoned : Bool) : State :=
  outstanding .read { someEntry (.requester (ticket .read abandoned)) .awaitingData false with mode := some mode } online

theorem witness_ReadsFinishOnTheirData (mode : Mode) (abandoned : Bool) :
    ∃ e, (reading mode abandoned).settle.Takes .read 0 0 e ∧ e.origin = .requester (ticket .read abandoned)
      ∧ (ticket .read abandoned).kind = .read ∧ e.region = some 0 ∧ e.mode = some mode
      ∧ (reading mode abandoned).settle.region 0 = some (someRegion .online .correcting) := by
  have quiet : (reading mode abandoned).quiet = true := by cases mode <;> cases abandoned <;> rfl
  refine ⟨_, takes_settled quiet ⟨rfl, ⟨_, rfl, rfl, rfl⟩, rfl, ?_⟩, rfl, rfl, rfl, rfl, ?_⟩
  · simp [someEntry]
  · rw [State.settle_of_quiet _ quiet]
    rfl

/-- The read phase of a MERGE is outstanding. -/
def merging (mode : Mode) (abandoned : Bool) : State :=
  outstanding .read
    { someEntry (.requester (ticket .merge abandoned)) .awaitingData false with
      mode := some mode, mask := some 1, data := some zeroData } online

theorem witness_MergesReadBeforeTheyWrite (mode : Mode) (abandoned : Bool) :
    ∃ e, (merging mode abandoned).settle.Takes .read 0 0 e ∧ e.origin = .requester (ticket .merge abandoned)
      ∧ (ticket .merge abandoned).abandoned = abandoned ∧ e.mode = some mode ∧ e.mask = some 1
      ∧ e.data = some zeroData := by
  have quiet : (merging mode abandoned).quiet = true := by cases mode <;> cases abandoned <;> rfl
  exact ⟨_, takes_settled quiet ⟨rfl, ⟨_, rfl, rfl, rfl⟩, rfl, by simp [someEntry]⟩, rfl, rfl, rfl, rfl, rfl⟩

/-- An operation of an entry without a ticket is outstanding. -/
def busy (o : Origin) (f : Option Finding) (writing : Bool) : State :=
  outstanding (if writing then .write else .read)
    { someEntry o (if writing then .awaitingDone else .awaitingData) writing with finding := f } online

theorem busy_takes (o : Origin) (f : Option Finding) (writing : Bool) (h : (busy o f writing).quiet = true) :
    ∃ e, (busy o f writing).settle.Takes (if writing then .write else .read) 0 0 e ∧ e.origin = o ∧ e.finding = f
      ∧ e.region = some 0 ∧ e.writing = writing ∧ e.line = 20 :=
  ⟨_, takes_settled h ⟨rfl, ⟨_, rfl, rfl, rfl⟩, rfl, by cases writing <;> simp [someEntry]⟩, rfl, rfl, rfl, rfl, rfl⟩

theorem witness_ScansAndRepairsReadAndWriteBackTheirLine :
    (∃ e, (busy .scan none false).settle.Takes .read 0 0 e ∧ e.origin = .scan)
    ∧ (∃ e, (busy .repair (some (.corrected 3)) true).settle.Takes .write 0 0 e ∧ e.origin = .repair
      ∧ e.finding = some (.corrected 3) ∧ e.region = some 0)
    ∧ (∃ e, (busy .scan (some .uncorrectable) true).settle.Takes .write 0 0 e ∧ e.origin = .scan
      ∧ e.finding = some .uncorrectable ∧ e.region = some 0)
    ∧ (busy .scan none true).settle.region 0 = some (someRegion .online .correcting) := by
  obtain ⟨e, h, k, _⟩ := busy_takes .scan none false rfl
  obtain ⟨e', h', k', m', n', _⟩ := busy_takes .repair (some (.corrected 3)) true rfl
  obtain ⟨e'', h'', k'', m'', n'', _⟩ := busy_takes .scan (some .uncorrectable) true rfl
  exact ⟨⟨e, h, k⟩, ⟨e', h', k', m', n'⟩, ⟨e'', h'', k'', m'', n''⟩, by
    rw [State.settle_of_quiet _ rfl]
    rfl⟩

/-- A copy's operation is outstanding: a first retirement of line 20 to spare 1. -/
def copyBusy (writing : Bool) (m : MapEntry) : State :=
  let t := spares [.free, .reserved, .inUse, .free] (busy .copy none writing)
  { t with retirement :=
      { t.retirement with map := [m], copy := some { line := 20, origin := .auto, spare := 1, void := false } } }

/-- The map entry of a first retirement, and of a re-retire, while its copy runs. -/
def firstCopy : MapEntry :=
  { line := 20, spare := 1, state := .copying, pending := none, auto := true, void := false, time := none }
def againCopy : MapEntry := { retired with state := .copying, pending := some 1 }

theorem witness_CopiesReadAndRetire (writing : Bool) (m : MapEntry) (hm : m = firstCopy ∨ m = againCopy) :
    ∃ e job a, (copyBusy writing m).settle.Takes (if writing then .write else .read) 0 0 e ∧ e.origin = .copy
      ∧ (copyBusy writing m).settle.retirement.copy = some job ∧ (copyBusy writing m).settle.retirement.area = some a
      ∧ (copyBusy writing m).settle.retirement.entry job.line = some m := by
  have quiet : (copyBusy writing m).quiet = true := by
    rcases hm with rfl | rfl <;> cases writing <;> rfl
  have hs := State.settle_of_quiet _ quiet
  refine ⟨_, _, _, takes_settled quiet ⟨rfl, ⟨_, rfl, rfl, rfl⟩, rfl, ?_⟩, rfl, by rw [hs]; rfl, by rw [hs]; rfl, ?_⟩
  · cases writing <;> simp [someEntry]
  · rw [hs]
    rcases hm with rfl | rfl <;> rfl

/-- A copy is in progress at a memory-link loss, its read or its write issued. -/
theorem witness_MemoryLossFailsTheCopy :
    (copyBusy true firstCopy).settle.memory.link = .up
    ∧ (∃ e, (copyBusy true firstCopy).settle.copyEntry = some e ∧ e.phase = .awaitingDone)
    ∧ (∃ e, (copyBusy false againCopy).settle.copyEntry = some e ∧ e.phase = .awaitingData) := by
  refine ⟨rfl, ⟨_, rfl, rfl⟩, ⟨_, rfl, rfl⟩⟩

/-- A requester's write is outstanding. -/
def writing (kind : Kind) (abandoned : Bool) (f : Option Finding) : State :=
  busy (.requester (ticket kind abandoned)) f true

theorem witness_WritesAndMergesFinishOnTheirAcknowledgement :
    (∃ e, (writing .write false none).settle.Takes .write 0 0 e
      ∧ e.origin = .requester (ticket .write false) ∧ e.region = some 0 ∧ ∀ p, e.finding ≠ some (.corrected p))
    ∧ ∃ e, (writing .merge true (some (.corrected 3))).settle.Takes .write 0 0 e
      ∧ e.origin = .requester (ticket .merge true) ∧ e.region = some 0 ∧ e.finding = some (.corrected 3) := by
  obtain ⟨e, h, k, m, n, _⟩ := busy_takes (.requester (ticket .write false)) none true rfl
  obtain ⟨e', h', k', m', n', _⟩ := busy_takes (.requester (ticket .merge true)) (some (.corrected 3)) true rfl
  exact ⟨⟨e, h, k, n, fun p => by simp [m]⟩, ⟨e', h', k', n', m'⟩⟩


/-- A fill write of line 20 is outstanding, with others or alone, in a phase of the fill. -/
def fillBusy (phase : FillPhase) (others unwritten : List LineNo) : State :=
  let s := outstanding .write (someEntry .fill .awaitingDone true) (withRegion .filling .correcting)
  s.setFill (some
    { phase := phase, region := 0, cursor := none, watermark := some 20, outstanding := 20 :: others
      unwritten := unwritten
      failed := if phase = .failing then some { line := 21, physical := 21, reason := .timeout } else none })

theorem fillBusy_takes (phase : FillPhase) (others unwritten : List LineNo)
    (h : (fillBusy phase others unwritten).quiet = true) :
    (fillBusy phase others unwritten).settle.Takes .write 0 0 (someEntry .fill .awaitingDone true)
      ∧ (fillBusy phase others unwritten).settle.region 0 = some (someRegion .filling .correcting)
      ∧ ∃ f, (fillBusy phase others unwritten).settle.patrol.fill = some f ∧ f.phase = phase ∧ f.region = 0
        ∧ f.outstanding.filter (· ≠ 20) = others.filter (· ≠ 20) ∧ f.unwritten = unwritten ∧ f.cursor = none
        ∧ (f.failed.isSome ↔ f.phase = .failing) := by
  refine ⟨takes_settled h ⟨rfl, ⟨_, rfl, rfl, rfl⟩, rfl, by simp [someEntry]⟩, ?_, ?_⟩
  · rw [State.settle_of_quiet _ h]
    rfl
  · rw [State.settle_of_quiet _ h]
    exact ⟨_, rfl, rfl, rfl, by simp, rfl, rfl, by cases phase <;> simp⟩

/-- Every phase of a fill, with lines still outstanding and with none; the lines left are empty exactly at the last. -/
theorem witness_FillWritesRaiseTheWatermark :
    (∀ phase, (fillBusy phase [21] []).quiet = true ∧ (fillBusy phase [] []).quiet = true)
    ∧ ([21] : List LineNo).filter (· ≠ 20) ≠ [] ∧ ([] : List LineNo).filter (· ≠ 20) = [] := by
  refine ⟨fun phase => ?_, by decide, rfl⟩
  cases phase <;> exact ⟨rfl, rfl⟩

theorem witness_FailedFillWritesEndTheFill :
    ∀ phase, ∃ f, (fillBusy phase [21] []).patrol.fill = some f ∧ (f.failed.isSome ↔ f.phase = .failing)
      ∧ (fillBusy phase [21] []).region f.region = some (someRegion .filling .correcting) := by
  intro phase
  refine ⟨_, rfl, ?_, ?_⟩
  · cases phase <;> simp
  · cases phase <;> rfl

theorem witness_CompletionsThatAreNotTaken :
    State.reset.settle.memory.link = .down
    ∧ bridge.settle.memory.link = .up ∧ (∀ r ∈ bridge.settle.memory.records, r.tag.val ≠ (64 : Byte).toNat)
    ∧ (∃ r, (busy .scan none false).settle.memory.find 0 = some r ∧ r.op = .read)
    ∧ (∃ r, (busy .scan none true).settle.memory.find 0 = some r ∧ r.op = .write)
    ∧ (let s := outstanding .read (someEntry .scan .expired false) online;
        ∃ r e, s.settle.memory.find 0 = some r ∧ r.op = .read ∧ s.settle.entry r.tag = some e ∧ e.phase = .expired) := by
  refine ⟨rfl, rfl, by decide, ⟨_, rfl, rfl⟩, ⟨_, rfl, rfl⟩, ⟨_, _, rfl, rfl, rfl, rfl⟩⟩

theorem witness_TargetErrorsFailTheirEntry :
    (1 : Byte) ≠ 0
    ∧ (∃ e, (busy (.requester (ticket .read false)) none false).settle.Takes .read 0 0 e
      ∧ e.origin = .requester (ticket .read false))
    ∧ (∃ e, (busy .scan none true).settle.Takes .write 0 0 e ∧ e.origin = .scan)
    ∧ (∃ e, (busy .fill none true).settle.Takes .write 0 0 e ∧ e.origin = .fill)
    ∧ ∃ e, (copyBusy false firstCopy).settle.Takes .read 0 0 e ∧ e.origin = .copy := by
  obtain ⟨a, ha, ka, _⟩ := busy_takes (.requester (ticket .read false)) none false rfl
  obtain ⟨b, hb, kb, _⟩ := busy_takes .scan none true rfl
  obtain ⟨d, hd, kd, _⟩ := busy_takes .fill none true rfl
  obtain ⟨e, _, _, he, ke, _⟩ := witness_CopiesReadAndRetire false firstCopy (.inl rfl)
  exact ⟨by decide, ⟨a, ha, ka⟩, ⟨b, hb, kb⟩, ⟨d, hd, kd⟩, ⟨e, he, ke⟩⟩

/-- An operation issued at time 0 with deadline 20,000, a microsecond before its deadline or at it. -/
def timed (o : Origin) (w late : Bool) : State :=
  { busy o none w with events := { bridge.events with time := if late then 20000 else 19999 } }

theorem witness_DeadlinesExpireTheirEntry (late : Bool) (o : Origin)
    (ho : o = .scan ∨ o = .requester (ticket .read false) ∨ o = .fill ∨ o = .copy) :
    ∃ e r, (timed o true late).settle.entry 0 = some e ∧ (e.phase = .awaitingData ∨ e.phase = .awaitingDone)
      ∧ e.origin = o
      ∧ (timed o true late).settle.memory.records.find? (fun x => decide (x.tag = 0)) = some r
      ∧ ((r.deadline - r.issued).toNat ≤ ((timed o true late).settle.events.time - r.issued).toNat ↔ late = true) := by
  have quiet : (timed o true late).quiet = true := by rcases ho with rfl | rfl | rfl | rfl <;> cases late <;> rfl
  rw [State.settle_of_quiet _ quiet]
  exact ⟨_, _, rfl, .inr rfl, rfl, rfl, by cases late <;> simp [timed]⟩

theorem witness_FailedCopiesRestoreTheMap :
    (∀ m, (copyBusy true m).retirement.copy = some { line := 20, origin := .auto, spare := 1, void := false }
      ∧ (copyBusy true m).retirement.area.isSome)
    ∧ (∃ e, (copying []).copyEntry = some e ∧ e.phase = .waitingLine)
    ∧ (∃ e, (copyBusy false firstCopy).copyEntry = some e ∧ e.phase = .awaitingData)
    ∧ ∃ e, (copyBusy true firstCopy).copyEntry = some e ∧ e.phase = .awaitingDone := by
  refine ⟨fun m => ⟨rfl, rfl⟩, ⟨_, rfl, rfl⟩, ⟨_, rfl, rfl⟩, ⟨_, rfl, rfl⟩⟩

/-! ### Witnesses: patrol, repair, fill and delivery -/

/-- A bridge with no entry and both links in the same state as `bridge` keeps the tracker's law. -/
theorem emptyTracker_sound (s : State) (he : ∀ i, s.entry i = none) (ho : s.tracker.order = [])
    (hw : s.memory.waiting = []) (hr : s.memory.records = []) (hf : s.memory.link = .down → s.patrol.fill = none) :
    s.TrackerSound where
  pools p := by simp [State.occupancy, he]
  entry i e h := by simp [he] at h
  orderNodup := by simp [ho]
  order i := by simp [ho, he]
  owner i e h := by simp [he] at h
  waitingNodup := by simp [hw]
  joined := ⟨[], [], by simp [hw], by simp, by simp, .nil⟩
  waiting i := by simp [hw, he]
  recordNodup := by simp [hr]
  record i := by simp [hr, he]
  op r e h := by simp [hr] at h
  down _ i := he i
  copy i e h := by simp [he] at h
  fill := hf

/-- A scan slot is due, and the scan is enabled or not. -/
def scanning (enabled : Bool) (s : State) : State :=
  { s with patrol := { s.patrol with scanEnabled := enabled }, events := { s.events with time := 1000 } }

theorem witness_ScanSlotsServeTheNextEligibleRegion :
    (∀ enabled, (scanning enabled online).quiet = true ∧ (scanning enabled bridge).quiet = true)
    ∧ (scanning true online).TrackerSound ∧ (scanning true bridge).TrackerSound
    ∧ (scanning true online).patrol.slotPeriod ≤ ((1000 : Time) - 0).toNat
    ∧ ¬(scanning true online).patrol.slotPeriod ≤ ((999 : Time) - 0).toNat
    ∧ ((scanning true online).patrol.scanEnabled = true ∧ (scanning true online).memory.link = .up
      ∧ (scanning true online).patrol.fill = none ∧ (scanning true online).occupancy .patrol < 6)
    ∧ (scanning false online).patrol.scanEnabled = false
    ∧ (scanning true online).region ((scanning true online).patrol.pointer + 1 + 0)
      = some (someRegion .online .correcting)
    ∧ (∀ i : Fin 32, (scanning true bridge).region i = none)
    ∧ (someRegion .online .correcting).Sound := by
  refine ⟨fun enabled => by cases enabled <;> exact ⟨rfl, rfl⟩, ?_, ?_, by decide, by decide, by decide, rfl, rfl,
    by decide, ?_⟩
  · exact emptyTracker_sound _ (by decide) rfl rfl rfl (by decide)
  · exact emptyTracker_sound _ (by decide) rfl rfl rfl (by decide)
  · exact ⟨by decide, by decide, by decide, by decide⟩

theorem witness_RepairsAndCopiesStartFromTheirQueues :
    (let s : State := { online with patrol := { online.patrol with repairQueue := [20, 21] } };
      s.patrol.repairQueue = 20 :: [21] ∧ s.slotFor .patrol = some 0 ∧ s.memory.link = .up
      ∧ s.lookup 20 = some (0, someRegion .online .correcting) ∧ s.lookup 200 = none)
    ∧ (withRegion .online .unchecked).lookup 20 = some (0, someRegion .online .unchecked)
    ∧ online.patrol.repairQueue = [] ∧ State.reset.memory.link = .down
    ∧ (let s : State :=
        { online with retirement :=
            { online.retirement with queue := [{ line := 20, origin := .auto, spare := 0 }] } };
      s.retirement.queue = [{ line := 20, origin := .auto, spare := 0 }] ∧ s.slotFor .copy = some 0
      ∧ s.memory.link = .up)
    ∧ online.retirement.queue = []
    ∧ (let s : State := { online with patrol := { online.patrol with repairQueue := [20, 21] } };
      s.patrol.repairQueue ≠ [] ∧ s.slotFor .patrol ≠ none ∧ s.memory.link = .up
      ∧ s.serveRepairs.patrol.repairQueue = [] ∧ s.serveRepairs.occupancy .patrol = 2) := by
  refine ⟨⟨rfl, rfl, rfl, rfl, rfl⟩, rfl, rfl, rfl, ⟨rfl, rfl, rfl⟩, rfl, by decide⟩

/-- A fill about to issue from a line. -/
def issuing (l : LineNo) : State :=
  (withRegion .filling .correcting).setFill (some
    { phase := .issuing, region := 0, cursor := some l, watermark := some 16, outstanding := [], unwritten := []
      failed := none })

/-- From the base the pool is filled first; from line 26 on the region ends with the pool, or before it. -/
theorem witness_FillIssueCreatesEntriesFromTheCursor (l : LineNo) :
    (issuing l).TrackerSound ∧ (issuing l).repairReady = false
    ∧ (∃ f, (issuing l).patrol.fill = some f ∧ f.phase = .issuing ∧ f.cursor = some l
      ∧ (issuing l).region f.region = some (someRegion .filling .correcting))
    ∧ (26 : LineNo).toNat ≤ (someRegion .filling .correcting).limit.toNat ∧ bridge.patrol.fill = none := by
  refine ⟨?_, rfl, ⟨_, rfl, rfl, rfl, rfl⟩, by decide, rfl⟩
  refine emptyTracker_sound _ (fun i => ?_) rfl rfl rfl fun h => ?_
  · have : ∀ i, bridge.entry i = none := by decide
    exact this i
  · exact absurd h (by simp [issuing, withRegion, bridge, State.setFill])

/-- A full event queue, with events lost. -/
def fullQueue : EventUnit :=
  { time := 0, credits := 32, lost := 3, nextSeq := 32
    queue := (List.range 32).map fun n => { seq := BitVec.ofNat 16 n, time := 0, notice := { kind := .fillDone } } }

theorem fullQueue_sound : fullQueue.Sound where
  queue := by decide
  credits := by decide
  lost := by decide
  full _ := by decide
  seq k r h := by
    have hk : k < 32 := by
      have := (List.getElem?_eq_some_iff.1 h).1
      simpa [fullQueue] using this
    simp only [fullQueue, List.getElem?_map, List.getElem?_range hk, Option.map_some, Option.some.injEq] at h
    subst h
    simp only [fullQueue, List.length_map, List.length_range]
    interval_cases k <;> rfl

theorem witness_EventDeliveryHandsTheHeadRecordToTheManager :
    (∃ r rest, fullQueue.queue = r :: rest) ∧ 0 < fullQueue.credits ∧ 0 < fullQueue.lost ∧ fullQueue.Sound
    ∧ bridge.port.link = .up ∧ bridge.events.queue = [] ∧ bridge.events.credits = 0 := by
  refine ⟨⟨_, _, rfl⟩, by decide, by decide, fullQueue_sound, rfl, rfl, rfl⟩

/-! ### Witnesses: the coder and the history table -/

theorem witness_Classification :
    isValid (encodeLine zeroData) = true ∧ isValid voidForm = false
    ∧ (∃ (l : StoredLine) (p : Fin 72) (d : Data), isValid l = false ∧ l ≠ voidForm ∧ OneOff l p d)
    ∧ ∃ l : StoredLine, isValid l = false ∧ l ≠ voidForm ∧ ∀ p d, ¬OneOff l p d := by
  refine ⟨(isValid_iff _).2 ⟨zeroData, rfl⟩, isValid_voidForm, ?_, ?_⟩
  · obtain ⟨v, hv⟩ : ∃ v : Byte, v ≠ (encodeLine zeroData)[0] := ⟨~~~(encodeLine zeroData)[0], by
      generalize (encodeLine zeroData)[0] = x
      revert x
      decide⟩
    have h := OneOff.of_set zeroData 0 v hv
    exact ⟨_, _, _, h.not_valid, h.not_void, h⟩
  · have blank := Config.checkBytes_lawful.blank_far 0xFF (.inr rfl)
    have far := not_oneOff_of_far (l := Vector.replicate 72 0xFF) fun d => by
      have := blank.1 d
      simp only [encodeLine]
      omega
    refine ⟨_, far.1, fun e => ?_, far.2⟩
    have := blank.2
    rw [e, voidForm, symbolDistance_self] at this
    omega

/-- Damage of one or two symbols exists for any line. -/
theorem witness_DamageIsClassifiedByItsExtent (x : Byte) : ∃ v : Byte, v ≠ x := ⟨~~~x, by
  revert x
  decide⟩

/-- The history table with an entry for line 20 in slot 0. -/
def counted (retire : RetireState) : State := online.setSlot 0 (some (someHistory retire))

theorem counted_slots (retire : RetireState) :
    ∀ i e, (counted retire).slot i = some e → i = 0 ∧ e = someHistory retire := by
  intro i e h
  simp only [counted, State.slot, State.setSlot, Vector.getElem_set] at h
  split at h
  · rename_i h0
    exact ⟨Fin.ext h0.symm, by simp_all⟩
  · simp [online, withRegion, bridge, State.setRegion, State.reset] at h

theorem counted_sound (retire : RetireState) : (counted retire).HistorySound := by
  refine ⟨fun i j e f h k _ => ?_, fun i e h => ?_, fun i e h => ?_⟩
  · rw [(counted_slots retire i e h).1, (counted_slots retire j f k).1]
  · rw [(counted_slots retire i e h).2]
    exact ⟨by simp [someHistory], by simp [someHistory]⟩
  · rw [(counted_slots retire i e h).2]
    exact ⟨someRegion .online .correcting, rfl, rfl⟩

/-- A full table of entries that differ in count and age: slot 5 alone has the lowest count. -/
def fullHistory : State :=
  { online with
    history := Vector.ofFn fun i : Fin 128 =>
      some { someHistory .none with line := BitVec.ofNat 32 i.val, count := if i = 5 then 2 else 3 } }

theorem witness_CorrectedWriteBacksAreCounted :
    online.region 0 = some (someRegion .online .correcting)
    ∧ (someRegion .online .correcting).contains 16 = true ∧ (someRegion .online .correcting).contains 31 = true
    ∧ (someRegion .online .correcting).contains 15 = false ∧ (someRegion .online .correcting).contains 32 = false
    ∧ (counted .none).HistorySound ∧ (counted .none).slot 0 = some (someHistory .none) ∧ (someHistory .none).line = 20
    ∧ (someHistory .none).region = 0
    ∧ (∀ i e, (counted .none).slot i = some e → e.line ≠ 21) ∧ (counted .none).takeSlot = some (1, [])
    ∧ (counted .none).slot 1 = none ∧ (∀ j : Fin 128, j < 1 → (counted .none).slot j ≠ none) := by
  refine ⟨rfl, rfl, rfl, rfl, rfl, counted_sound _, rfl, rfl, rfl, fun i e h => ?_, rfl, rfl, by decide⟩
  rw [(counted_slots .none i e h).2]
  decide

theorem witness_FullHistoryTable :
    (∀ j, fullHistory.slot j ≠ none)
    ∧ ∃ e, fullHistory.slot 5 = some e ∧ e.retire ≠ .queued ∧ e.count = 2
      ∧ ∀ j f, fullHistory.slot j = some f → f.retire ≠ .queued → j ≠ 5 → e.count < f.count := by
  have slots : ∀ j : Fin 128, fullHistory.slot j
      = some { someHistory .none with line := BitVec.ofNat 32 j.val, count := if j = 5 then 2 else 3 } := by
    intro j
    simp [fullHistory, State.slot]
  refine ⟨fun j => by simp [slots], _, slots 5, by simp [someHistory], rfl, fun j f h _ hj => ?_⟩
  rw [slots] at h
  injection h with h
  simp [← h, hj]


/-- A retire queue with line 20 in it, AUTO, and spare 1 reserved; the memory link is DOWN, so no copy starts. -/
def queued : State :=
  let s := spares [.inUse, .reserved, .free, .free] (fallen (counted .queued))
  { s with retirement := { s.retirement with queue := [{ line := 20, origin := .auto, spare := 1 }] } }

/-- A fill with nothing outstanding that cannot issue: scans hold the whole patrol pool. -/
def stoppable : State :=
  { issuing 16 with
    tracker :=
      { entries := Vector.ofFn fun j : Fin 64 => if j.val < 6 then some (someEntry .scan .awaitingData false) else none
        order := [0, 1, 2, 3, 4, 5] } }

/-! ### Witnesses: management commands

Each command stands at the head by `atHead`, on a bridge at rest; what remains is that its bytes and the state meet each
clause. -/

/-- The states of the witnesses that follow are at rest. -/
theorem witness_ManagementStatesAreQuiet :
    State.reset.quiet = true ∧ bridge.quiet = true ∧ online.quiet = true ∧ filling.quiet = true ∧ stoppable.quiet = true
    ∧ (withRegion .offline .correcting).quiet = true ∧ (busy .scan none false).quiet = true
    ∧ ({ online with management := { online.management with frozen := true } } : State).quiet = true
    ∧ ({ online with memory := { online.memory with capacity := some 31 } } : State).quiet = true
    ∧ (∀ r, (counted r).quiet = true) ∧ fullHistory.quiet = true ∧ (copyBusy true firstCopy).quiet = true
    ∧ (∀ l, (spares l bridge).quiet = true) ∧ queued.quiet = true := by
  refine ⟨rfl, rfl, rfl, rfl, rfl, rfl, rfl, rfl, rfl, fun r => rfl, rfl, rfl, fun l => rfl, rfl⟩

theorem witness_CommandsAreCheckedForSenderAndCode :
    (told (command [(0, 23)]) bridge).port.commands = command [(0, 23)] :: []
    ∧ (command []).requester.toNat = bridge.management.manager.val
    ∧ ({ command [] with requester := 16 } : Command).requester.toNat ≠ bridge.management.manager.val
    ∧ argCode (block []) = 0 ∧ argCode (block [(0, 1)]) = 1 ∧ argCode (block [(0, 22)]) = 22
    ∧ argCode (block [(0, 23)]) = 23 := by decide

/-- Every command of a code from 1 to 22 can stand at the head. -/
theorem witness_AtHead (code : Fin 23) :
    ((told (command [(0, BitVec.ofNat 8 code.val)]) bridge).settleBefore .command).AtHead code.val
      (command [(0, BitVec.ofNat 8 code.val)]) [] := by
  refine (atHead _ _ _ rfl ?_ rfl).1
  revert code
  decide

/-- A region of lines 32 to 255, every other field at the top of its range. -/
def defineBytes : List (Nat × Byte) :=
  [(0, 1), (4, 31), (5, 1), (6, 1), (7, 16), (8, 15), (9, 3), (10, 1), (12, 32), (16, 255), (20, 0x24)]

theorem witness_RegionDefineFillsAnEmptyEntry :
    argIndex (block defineBytes) = some 31 ∧ argIndex (block [(4, 32)]) = none
    ∧ online.region 0 ≠ none ∧ online.region 31 = none
    ∧ State.reset.memory.capacity = none ∧ online.memory.capacity = some 256
    ∧ (∃ r, argRegion (block defineBytes) = some r ∧ r.base = 32 ∧ r.limit = 255 ∧ r.burst = 16 ∧ r.threshold = 15
      ∧ r.fixed = true ∧ r.rights[0] = .none ∧ r.rights[1] = .read ∧ r.rights[2] = .readWrite
      ∧ r.limit.toNat < 256 ∧ ¬r.limit.toNat < 255)
    ∧ argRegion (block [(7, 0)]) = none ∧ argRegion (block [(7, 17)]) = none
    ∧ argRegion (block [(7, 1), (8, 16)]) = none ∧ argRegion (block [(7, 1), (9, 4)]) = none
    ∧ argRegion (block [(7, 1), (10, 2)]) = none ∧ argRegion (block [(7, 1), (20, 3)]) = none
    ∧ (argRegion (block [(7, 1)])).isSome
    ∧ online.overlapsRegion none 31 255 = true ∧ online.overlapsRegion none 32 255 = false
    ∧ ({ online with management := { online.management with frozen := true } } : State).management.frozen = true := by
  refine ⟨rfl, rfl, by decide, rfl, rfl, rfl, ⟨_, rfl, by decide⟩, rfl, rfl, rfl, rfl, rfl, rfl, rfl, rfl, rfl, rfl⟩

/-- A change of every field of region 0, or of none. -/
def modifyBytes (fields : List (Nat × Byte)) : List (Nat × Byte) :=
  [(0, 2), (7, 1), (10, 1), (12, 32), (16, 255)] ++ fields

theorem witness_RegionModifyWritesTheNamedFields :
    argIndex (block (modifyBytes [])) = some 0 ∧ online.region 0 = some (someRegion .online .correcting)
    ∧ online.region 1 = none
    ∧ (∀ k : Fin 9, argSelects (block (modifyBytes [(24, 0xFF), (25, 0x01)])) k.val = true
      ∧ argSelects (block (modifyBytes [])) k.val = false)
    ∧ (someRegion .online .correcting).phase ≠ .offline ∧ (someRegion .offline .correcting).phase = .offline
    ∧ argNamedGood (block (modifyBytes [(24, 0xFF), (25, 0x01)])) = true
    ∧ argNamedGood (block (modifyBytes [(24, 0x02), (20, 0x03)])) = false
    ∧ (modifiedRegion (block (modifyBytes [(24, 0x01)])) (someRegion .offline .correcting)).limit = 255
    ∧ (255 : LineNo).toNat < 256 ∧ argFlag (block (modifyBytes [(24, 0x00), (25, 0x01)])) 10 = some true := by
  refine ⟨rfl, rfl, rfl, by decide, by decide, rfl, rfl, rfl, rfl, by decide, rfl⟩

theorem witness_RegionStateAndQuery :
    argNat (block [(0, 3), (5, 1)]) 5 1 = 1 ∧ argNat (block [(0, 3), (5, 2)]) 5 1 = 2 ∧ argNat (block [(0, 3)]) 5 1 = 0
    ∧ argNat (block [(0, 3), (5, 3)]) 5 1 = 3
    ∧ filling.region 0 = some (someRegion .filling .correcting)
    ∧ (∀ n, online.memory.capacity = some n → ¬n ≤ (someRegion .online .correcting).limit.toNat)
    ∧ (let s : State := { online with memory := { online.memory with capacity := some 31 } };
      ∀ n, s.memory.capacity = some n → n ≤ (someRegion .online .correcting).limit.toNat)
    ∧ argNat (block [(0, 5), (5, 1)]) 5 1 = 1 ∧ argNat (block [(0, 5), (5, 2)]) 5 1 = 2 := by
  refine ⟨rfl, rfl, rfl, rfl, rfl, fun n h => ?_, fun n h => ?_, rfl, rfl⟩
  · have : n = 256 := by simpa [online, withRegion, bridge, State.setRegion, eq_comm] using h
    subst this
    decide
  · have : n = 31 := by simpa [eq_comm] using h
    subst this
    decide

theorem witness_RegionRemoveAndFillStart :
    (withRegion .offline .correcting).region 0 = some (someRegion .offline .correcting)
    ∧ (∀ j : Fin 64, (withRegion .offline .correcting).entry j = none)
    ∧ (withRegion .offline .correcting).patrol.fill = none ∧ (withRegion .offline .correcting).memory.link = .up
    ∧ (withRegion .offline .correcting).memory.capacity = some 256
    ∧ (∃ e, (busy .scan none false).entry 0 = some e ∧ e.region = some 0)
    ∧ filling.patrol.fill ≠ none ∧ State.reset.memory.link = .down
    ∧ (someRegion .offline .correcting).limit.toNat < 256 ∧ ({ someRegion .offline .correcting with fixed := true } : Region).fixed = true := by
  refine ⟨rfl, by decide, rfl, rfl, rfl, ⟨_, rfl, rfl⟩, by decide, rfl, by decide, rfl⟩

theorem witness_PatrolSetTakesItsSettings :
    argNat (block [(4, 1), (12, 10)]) 4 1 = 1 ∧ argNat (block [(4, 2)]) 4 1 = 2
    ∧ argNat (block [(12, 9)]) 12 4 = 9 ∧ argNat (block [(12, 10)]) 12 4 = 10
    ∧ argNat (block [(12, 0xA0), (13, 0x86), (14, 0x01)]) 12 4 = 100000
    ∧ argNat (block [(12, 0xA1), (13, 0x86), (14, 0x01)]) 12 4 = 100001 := by decide

theorem witness_FillStop :
    (∀ f, online.patrol.fill = some f → f.phase ≠ .issuing)
    ∧ (∃ f, filling.patrol.fill = some f ∧ f.phase = .issuing ∧ f.outstanding ≠ [])
    ∧ ∃ f r w, stoppable.patrol.fill = some f ∧ f.phase = .issuing ∧ f.outstanding = [] ∧ f.watermark = some w
      ∧ stoppable.region f.region = some r := by
  refine ⟨fun f h => ?_, ⟨_, rfl, rfl, by simp⟩, ⟨_, _, _, rfl, rfl, rfl, rfl, rfl⟩⟩
  simp [online, withRegion, bridge, State.setRegion, State.reset] at h

theorem witness_HistoryIsQueriedAndCleared :
    argNat (block [(4, 127)]) 4 2 = 127 ∧ argNat (block [(4, 128)]) 4 2 = 128
    ∧ argNat (block [(4, 1)]) 4 1 = 1 ∧ argNat (block [(4, 2)]) 4 1 = 2 ∧ argNat (block [(4, 3)]) 4 1 = 3
    ∧ (counted .none).HistorySound ∧ (counted .queued).HistorySound
    ∧ (counted .none).slot 0 = some (someHistory .none) ∧ (counted .queued).slot 0 = some (someHistory .queued)
    ∧ (someHistory .queued).retire = .queued ∧ (someHistory .none).line = argLine (block [(12, 20)]) 12
    ∧ (fullHistory.slotsFrom 0).length = 128 ∧ ((fullHistory.slotsFrom 120).length = 8)
    ∧ (fullHistory.slotsFrom 119).length = 9 := by
  refine ⟨rfl, rfl, rfl, rfl, rfl, counted_sound _, counted_sound _, rfl, rfl, rfl, rfl, by decide, by decide, by decide⟩

theorem witness_SparesAreSetMarkedAndQueried :
    argNat (block []) 16 2 = 0 ∧ argNat (block [(16, 1)]) 16 2 = 1 ∧ argNat (block [(17, 1)]) 16 2 = 256
    ∧ argNat (block [(16, 1), (17, 1)]) 16 2 = 257
    ∧ State.reset.memory.capacity = none ∧ bridge.memory.capacity = some 256
    ∧ 0 + 256 ≤ 256 ∧ 256 < 0 + 257
    ∧ bridge.retirement.map = [] ∧ bridge.retirement.queue = [] ∧ (∀ j : Fin 64, bridge.entry j = none)
    ∧ (copyBusy true firstCopy).retirement.map ≠ []
    ∧ (let s := spares [.free, .inUse] bridge;
      ∃ a, s.retirement.area = some a ∧ a.spares.length ≤ argNat (block [(4, 2)]) 4 2
        ∧ a.spares[argNat (block [(4, 1)]) 4 2]? = some .inUse ∧ a.spares[argNat (block []) 4 2]? = some .free)
    ∧ bridge.retirement.area = none := by
  refine ⟨rfl, rfl, rfl, rfl, rfl, rfl, by decide, by decide, rfl, rfl, by decide, by simp [copyBusy],
    ⟨_, rfl, by decide, rfl, rfl⟩, rfl⟩

theorem queued_sound : queued.retirement.Sound := by
  refine ⟨by decide, by decide, fun j h => ?_, by decide⟩
  simp [queued, fallen, spares, counted, online, withRegion, bridge, State.setSlot, State.setRegion, State.reset] at h

theorem witness_Retirements :
    bridge.retirement.area = none ∧ queued.retirement.Sound
    ∧ (∃ a, queued.retirement.area = some a ∧ a.contains 128 = true ∧ a.contains 131 = true ∧ a.contains 127 = false
      ∧ a.contains 132 = false ∧ a.spares[2]? = some .free ∧ a.spares[0]? = some .inUse
      ∧ ∀ j : Nat, j < 2 → a.spares[j]? ≠ some .free)
    ∧ (∃ q ∈ queued.retirement.queue, q.line = argLine (block [(12, 20)]) 12)
    ∧ (∀ q ∈ queued.retirement.queue, q.line ≠ 21) ∧ queued.retirement.copy = none
    ∧ queued.retirement.queue.length < 8 ∧ queued.retirement.unavailable = false
    ∧ (∃ j, (copyBusy true firstCopy).retirement.copy = some j ∧ j.line = 20)
    ∧ (∃ m ∈ (copyBusy true firstCopy).retirement.map, m.line = 20)
    ∧ (∀ n, queued.memory.capacity = some n → ¬n ≤ (255 : LineNo).toNat)
    ∧ argNat (block [(4, 255)]) 4 2 = 255 ∧ argNat (block [(5, 1)]) 4 2 = 256 := by
  refine ⟨rfl, queued_sound, ⟨_, rfl, rfl, rfl, rfl, rfl, rfl, rfl, fun j h => ?_⟩, ⟨_, .head _, rfl⟩, by decide, rfl,
    by decide, rfl, ⟨_, rfl, rfl⟩, ⟨_, .head _, rfl⟩, fun n h => ?_, rfl, rfl⟩
  · interval_cases j <;> decide
  · have : n = 256 := by
      simpa [queued, fallen, spares, counted, online, withRegion, bridge, State.setSlot, State.setRegion, eq_comm] using h
    subst this
    decide

/-- The law of the spares has work to do in a state with a retired line, a queued one, and a free spare. -/
theorem witness_RetirementSound :
    let s : State :=
      { queued with retirement := { queued.retirement with map := [{ retired with line := 21, spare := 0 }] } }
    s.RetirementSound := by
  refine
    { queue := ⟨by decide, by decide, fun j h => ?_, by decide⟩, area := fun a h => ?_, noArea := fun h => ?_,
      inUse := fun a i h => ?_, mapSpares := by decide, reserved := fun a i h => ?_, promised := by decide,
      length := by decide, outside := fun a h => ?_, active := by decide, copying := by decide, held := fun j h => ?_ }
  · exact absurd h (by simp [queued, fallen, spares, counted, online, withRegion, bridge, State.setSlot, State.setRegion,
      State.reset])
  · injection h with h
    subst h
    decide
  · exact absurd h (by simp [queued, spares])
  · injection h with h
    subst h
    match i with
    | 0 => decide
    | 1 => decide
    | 2 => decide
    | 3 => decide
    | n + 4 => simp [retired, MapEntry.keepsSpare]
  · injection h with h
    subst h
    match i with
    | 0 => decide
    | 1 => decide
    | 2 => decide
    | 3 => decide
    | n + 4 =>
      simp [Retirement.promised, queued, fallen, spares, counted, online, withRegion, bridge, State.setSlot, State.setRegion,
        State.reset]
  · injection h with h
    subst h
    refine ⟨by decide, by decide, fun j h => ?_⟩
    exact absurd h (by simp [queued, fallen, spares, counted, online, withRegion, bridge, State.setSlot, State.setRegion,
      State.reset])
  · exact absurd h (by simp [queued, fallen, spares, counted, online, withRegion, bridge, State.setSlot, State.setRegion,
      State.reset])

/-- Each answer of the checks of a retirement: a line, and a state in which it is the answer. -/
theorem witness_RetireCheck :
    bridge.retireCheck 20 = .noSpareArea ∧ queued.retireCheck 256 = .beyondCapacity
    ∧ queued.retireCheck 255 = .accepted 2 ∧ queued.retireCheck 128 = .inSpareArea ∧ queued.retireCheck 131 = .inSpareArea
    ∧ queued.retireCheck 132 = .accepted 2 ∧ queued.retireCheck 20 = .pending
    ∧ (copyBusy true firstCopy).retireCheck 20 = .pending
    ∧ (let s : State :=
        { queued with
          retirement :=
            { queued.retirement with queue := List.replicate 8 { line := 20, origin := .auto, spare := 1 } } };
      s.retireCheck 21 = .queueFull)
    ∧ (spares [.inUse] bridge).retireCheck 21 = .noneFree
    ∧ (let s : State := { queued with retirement := { queued.retirement with unavailable := true } };
      s.retireCheck 21 = .unavailable) := by
  refine ⟨rfl, rfl, rfl, rfl, rfl, rfl, rfl, rfl, rfl, rfl, rfl⟩

theorem witness_TimeoutSetTakesItsValue :
    argNat (block [(12, 99)]) 12 4 = 99 ∧ argNat (block [(12, 100)]) 12 4 = 100
    ∧ argNat (block [(12, 0x40), (13, 0x42), (14, 0x0F)]) 12 4 = 1000000
    ∧ argNat (block [(12, 0x41), (13, 0x42), (14, 0x0F)]) 12 4 = 1000001
    ∧ bridge.management.frozen = false ∧ bridge.quiet = true ∧ Instr.acceptance ≠ .timeoutSet := by
  refine ⟨rfl, rfl, rfl, rfl, rfl, rfl, by decide⟩

theorem witness_TimeoutKeptAtIssue :
    ∃ t r, exec .issueGrant (waiting .scan) = .next t ∧ r ∈ t.memory.records :=
  ⟨_, _, rfl, List.mem_append_right _ (List.mem_singleton.2 rfl)⟩

theorem witness_EventGrantAddsCredits :
    argNat (block []) 4 1 = 0 ∧ argNat (block [(4, 1)]) 4 1 = 1 ∧ argNat (block [(4, 32)]) 4 1 = 32
    ∧ argNat (block [(4, 33)]) 4 1 = 33 := by decide

theorem witness_ManagerFreezeAndDeviceCommands :
    argNat (block [(4, 15)]) 4 1 = 15 ∧ argNat (block [(4, 16)]) 4 1 = 16 ∧ bridge.management.frozen = false := by
  decide

/-! ### Witnesses: what every step keeps -/

/-- The state after reset meets every law but those of its tables, which follow. -/
theorem witness_LawsOfThePorts : bridge.port.Sound ∧ bridge.memory.Sound ∧ bridge.events.Sound ∧ bridge.RepairsSound := by
  refine ⟨⟨by decide, by decide, by decide⟩, ⟨by decide, by decide, by decide, by decide, by decide⟩,
    ⟨by decide, by decide, by decide, by decide, ?_⟩, ⟨by decide, by decide⟩⟩
  intro k r h
  simp [bridge, State.reset] at h

theorem witness_LawsOfTheTables :
    filling.RegionsSound ∧ filling.FillSound ∧ (counted .none).HistorySound ∧ (counted .none).RepairsSound
    ∧ (counted .none).retirement.Sound ∧ bridge.TrackerSound := by
  obtain ⟨a, b, k⟩ := oneRegion_sound .filling .correcting
  refine ⟨⟨a, b, k⟩, ⟨fun f h => ?_, fun i r h => ?_, by decide, fun f h => ?_⟩, counted_sound _,
    ⟨by decide, by decide⟩, ⟨by decide, by decide, fun j h => ?_, by decide⟩,
    emptyTracker_sound _ (by decide) rfl rfl rfl (by decide)⟩
  · injection h with h
    exact ⟨someRegion .filling .correcting, by rw [← h]; rfl⟩
  · have h0 : i = 0 := by
      by_contra hn
      have : (withRegion .filling .correcting).region i = none := by
        rw [withRegion, State.region_setRegion, if_neg (Ne.symm hn)]
        simp [bridge, State.region, State.reset]
      rw [show filling.region i = (withRegion .filling .correcting).region i from rfl, this] at h
      cases h
    subst h0
    have hr : r = someRegion .filling .correcting := by
      injection h with h
      exact h.symm
    exact ⟨fun _ => ⟨_, rfl, rfl⟩, fun _ => by rw [hr]; rfl⟩
  · injection h with h
    subst h
    simp
  · simp [counted, online, withRegion, bridge, State.setSlot, State.setRegion, State.reset] at h

theorem witness_FrozenBridgeKeepsItsConfiguration :
    let s : State := { online with management := { online.management with frozen := true } }
    s.management.frozen = true ∧ (∃ t, step s = .next t) ∧ ∀ p rest, s.pending ≠ .coldReset p :: rest := by
  refine ⟨rfl, step_answers_next _, fun p rest => ?_⟩
  simp [online, withRegion, bridge, State.setRegion, State.reset]

end Sys2Proof.Tests
end

section
/-! SUPPORT. What an operation leaves of the settings of the bridge: the fields of the memory port, the patrol unit and
the retirement unit that no frame of `Laws/Frames.lean` names, because the operation writes another field of the same
block. -/

namespace Sys2Proof.Machine

/-- The bounds of a spare area: its base and how many spares it has. -/
def spareBounds (a : Option SpareArea) : Option (LineNo × Nat) := a.map fun a => (a.base, a.spares.length)

/-- What the law of the fill speaks of: the phase, the region, and whether a failed line is recorded. -/
def Fill.status (f : Fill) : FillPhase × Fin 32 × Bool := (f.phase, f.region, f.failed.isSome)

/-! ### The spare area keeps its bounds -/

@[simp] theorem State.setSpare_bounds (i : Nat) (x : SpareState) (s : State) :
    spareBounds (s.setSpare i x).retirement.area = spareBounds s.retirement.area := by
  unfold State.setSpare
  split <;> simp [spareBounds, *]

@[simp] theorem State.prepareMap_area (job : CopyJob) (s : State) :
    (s.prepareMap job).retirement.area = s.retirement.area := by
  unfold State.prepareMap; (repeat' split) <;> simp

@[simp] theorem State.enqueueRetire_bounds (l : LineNo) (o : RetireOrigin) (i : Nat) (s : State) :
    spareBounds (s.enqueueRetire l o i).retirement.area = spareBounds s.retirement.area := by simp [State.enqueueRetire]

@[simp] theorem State.moveSpares_bounds (job : CopyJob) (s : State) :
    spareBounds (s.moveSpares job).retirement.area = spareBounds s.retirement.area := by
  unfold State.moveSpares; (repeat' split) <;> simp

@[simp] theorem State.restoreMap_area (job : CopyJob) (s : State) :
    (s.restoreMap job).retirement.area = s.retirement.area := by
  unfold State.restoreMap; (repeat' split) <;> simp

@[simp] theorem State.copySucceed_bounds (r : Option (Fin 32)) (s : State) :
    spareBounds (s.copySucceed r).retirement.area = spareBounds s.retirement.area := by
  unfold State.copySucceed; split <;> simp [State.endCopy, State.activateMap]

@[simp] theorem State.copyFail_bounds (o i : Bool) (w : Reason) (r : Option (Fin 32)) (s : State) :
    spareBounds (s.copyFail o i w r).retirement.area = spareBounds s.retirement.area := by
  unfold State.copyFail; (repeat' split) <;> simp [State.endCopy]

@[simp] theorem State.copyLost_bounds (s : State) :
    spareBounds s.copyLost.retirement.area = spareBounds s.retirement.area := by
  unfold State.copyLost; (repeat' split) <;> simp

@[simp] theorem State.failQueued_bounds (s : State) (q : RetireEntry) :
    spareBounds (s.failQueued q).retirement.area = spareBounds s.retirement.area := by simp [State.failQueued]

@[simp] theorem State.clipSpares_bounds (n : Nat) (s : State) :
    spareBounds (s.clipSpares n).retirement.area = spareBounds s.retirement.area := by
  unfold State.clipSpares
  (repeat' split) <;> simp [foldl_frame State.failQueued (fun t => spareBounds t.retirement.area) (by simp)]

@[simp] theorem State.autoAnswer_bounds (i : Fin 128) (e : HistoryEntry) (a : RetireAnswer) (s : State) :
    spareBounds (s.autoAnswer i e a).retirement.area = spareBounds s.retirement.area := by
  unfold State.autoAnswer; (repeat' split) <;> simp

@[simp] theorem State.thresholdTest_bounds (i : Fin 128) (s : State) :
    spareBounds (s.thresholdTest i).retirement.area = spareBounds s.retirement.area := by
  unfold State.thresholdTest; (repeat' split) <;> simp

@[simp] theorem State.reportWriteBack_bounds (l : LineNo) (r : Fin 32) (p : Fin 72) (o : WriteBackOrigin) (s : State) :
    spareBounds (s.reportWriteBack l r p o).retirement.area = spareBounds s.retirement.area := by
  unfold State.reportWriteBack; (repeat' split) <;> simp

@[simp] theorem State.reportMerge_bounds (e : Entry) (s : State) :
    spareBounds (s.reportMerge e).retirement.area = spareBounds s.retirement.area := by
  unfold State.reportMerge; (repeat' split) <;> simp

@[simp] theorem State.patrolWritten_bounds (i : Fin 64) (e : Entry) (s : State) :
    spareBounds (s.patrolWritten i e).retirement.area = spareBounds s.retirement.area := by
  unfold State.patrolWritten; (repeat' split) <;> simp; split <;> simp

@[simp] theorem State.originFails_bounds (e : Entry) (w : FillFailure) (s : State) :
    spareBounds (s.originFails e w).retirement.area = spareBounds s.retirement.area := by
  unfold State.originFails; (repeat' split) <;> simp

/-! ### Entries that are created, become owner, wait or leave -/

@[simp] theorem State.becomeOwner_settings (i : Fin 64) (s : State) :
    (s.becomeOwner i).memory.mtimeout = s.memory.mtimeout ∧ (s.becomeOwner i).memory.link = s.memory.link ∧
      (s.becomeOwner i).retirement.area = s.retirement.area := by
  unfold State.becomeOwner; (repeat' split) <;> simp

@[simp] theorem State.create_settings (i : Fin 64) (e : Entry) (s : State) :
    (s.create i e).memory.mtimeout = s.memory.mtimeout ∧ (s.create i e).memory.link = s.memory.link ∧
      (s.create i e).retirement.area = s.retirement.area := by
  unfold State.create; (repeat' split) <;> simp

@[simp] theorem State.ownershipPass_settings (s : State) :
    s.ownershipPass.memory.mtimeout = s.memory.mtimeout ∧ s.ownershipPass.memory.link = s.memory.link ∧
      s.ownershipPass.retirement.area = s.retirement.area := by
  unfold State.ownershipPass; (repeat' split) <;> simp

@[simp] theorem State.copyStart_settings (s : State) :
    s.copyStart.memory.mtimeout = s.memory.mtimeout ∧ s.copyStart.memory.link = s.memory.link ∧
      s.copyStart.retirement.area = s.retirement.area := by
  unfold State.copyStart; (repeat' split) <;> simp

@[simp] theorem State.decideRequest_settings (q : Request) (i : Fin 64) (s : State) :
    (s.decideRequest q i).memory.mtimeout = s.memory.mtimeout ∧
      (s.decideRequest q i).memory.link = s.memory.link ∧
      (s.decideRequest q i).retirement.area = s.retirement.area := by
  unfold State.decideRequest; (repeat' split) <;> simp

@[simp] theorem State.acceptance_settings (s : State) :
    s.acceptance.memory.mtimeout = s.memory.mtimeout ∧ s.acceptance.memory.link = s.memory.link ∧
      s.acceptance.retirement.area = s.retirement.area := by
  unfold State.acceptance; (repeat' split) <;> simp

@[simp] theorem State.issueGrant_settings (s : State) :
    s.issueGrant.memory.mtimeout = s.memory.mtimeout ∧ s.issueGrant.memory.link = s.memory.link := by
  unfold State.issueGrant; (repeat' split) <;> simp [State.issue]

@[simp] theorem State.patrolRead_settings (i : Fin 64) (e : Entry) (f : Finding) (d : Data) (s : State) :
    (s.patrolRead i e f d).memory.mtimeout = s.memory.mtimeout ∧
      (s.patrolRead i e f d).memory.link = s.memory.link := by
  unfold State.patrolRead; (repeat' split) <;> simp

@[simp] theorem State.patrolWritten_settings (i : Fin 64) (e : Entry) (s : State) :
    (s.patrolWritten i e).memory.mtimeout = s.memory.mtimeout ∧
      (s.patrolWritten i e).memory.link = s.memory.link := by
  unfold State.patrolWritten; (repeat' split) <;> simp
  split <;> simp

/-! ### The repair queue, scan slots and the fill -/

@[simp] theorem State.offerRepair_settings (l : LineNo) (s : State) :
    (s.offerRepair l).patrol.scanEnabled = s.patrol.scanEnabled ∧
      (s.offerRepair l).patrol.slotPeriod = s.patrol.slotPeriod ∧ (s.offerRepair l).patrol.fill = s.patrol.fill := by
  unfold State.offerRepair; split <;> simp

@[simp] theorem State.offerIf_settings (b : Bool) (l : LineNo) (s : State) :
    (s.offerIf b l).patrol.scanEnabled = s.patrol.scanEnabled ∧
      (s.offerIf b l).patrol.slotPeriod = s.patrol.slotPeriod ∧ (s.offerIf b l).patrol.fill = s.patrol.fill := by
  unfold State.offerIf; split <;> simp

@[simp] theorem State.repairService_settings (s : State) :
    s.repairService.memory.mtimeout = s.memory.mtimeout ∧ s.repairService.memory.link = s.memory.link ∧
      s.repairService.patrol.scanEnabled = s.patrol.scanEnabled ∧
      s.repairService.patrol.slotPeriod = s.patrol.slotPeriod ∧ s.repairService.patrol.fill = s.patrol.fill := by
  unfold State.repairService; (repeat' split) <;> simp

@[simp] theorem State.serveRepairsFor_settings (n : Nat) (s : State) :
    (s.serveRepairsFor n).memory.mtimeout = s.memory.mtimeout ∧
      (s.serveRepairsFor n).memory.link = s.memory.link ∧
      (s.serveRepairsFor n).patrol.scanEnabled = s.patrol.scanEnabled ∧
      (s.serveRepairsFor n).patrol.slotPeriod = s.patrol.slotPeriod ∧
      (s.serveRepairsFor n).patrol.fill = s.patrol.fill := by
  induction n generalizing s with
  | zero => simp [State.serveRepairsFor]
  | succ n ih => unfold State.serveRepairsFor; split <;> simp [ih]

@[simp] theorem State.offerAndServe_settings (s : State) (l : LineNo) :
    (s.offerAndServe l).memory.mtimeout = s.memory.mtimeout ∧ (s.offerAndServe l).memory.link = s.memory.link ∧
      (s.offerAndServe l).patrol.scanEnabled = s.patrol.scanEnabled ∧
      (s.offerAndServe l).patrol.slotPeriod = s.patrol.slotPeriod ∧
      (s.offerAndServe l).patrol.fill = s.patrol.fill := by simp [State.offerAndServe, State.serveRepairs]

@[simp] theorem State.resetEntry_settings (s : State) (i : Fin 64) :
    (s.resetEntry i).memory.mtimeout = s.memory.mtimeout ∧ (s.resetEntry i).memory.link = s.memory.link ∧
      (s.resetEntry i).patrol = s.patrol := by
  unfold State.resetEntry; (repeat' split) <;> simp

@[simp] theorem State.resetRequesters_settings (s : State) :
    s.resetRequesters.memory.mtimeout = s.memory.mtimeout ∧ s.resetRequesters.memory.link = s.memory.link ∧
      s.resetRequesters.patrol.scanEnabled = s.patrol.scanEnabled ∧
      s.resetRequesters.patrol.slotPeriod = s.patrol.slotPeriod ∧
      s.resetRequesters.patrol.fill = s.patrol.fill := by
  have h {α : Type} (π : State → α) (hπ : ∀ t x, π (State.resetEntry t x) = π t)
      (hσ : ∀ t l, π (State.offerAndServe t l) = π t) : π s.resetRequesters = π s :=
    (foldl_frame State.offerAndServe π hσ _ _).trans (foldl_frame State.resetEntry π hπ _ s)
  exact ⟨h (·.memory.mtimeout) (by simp) (by simp), h (·.memory.link) (by simp) (by simp),
    h (·.patrol.scanEnabled) (by simp) (by simp), h (·.patrol.slotPeriod) (by simp) (by simp),
    h (·.patrol.fill) (by simp) (by simp)⟩

@[simp] theorem State.scanBurst_settings (i : Fin 32) (n : Nat) (s : State) :
    (s.scanBurst i n).memory.mtimeout = s.memory.mtimeout ∧ (s.scanBurst i n).memory.link = s.memory.link ∧
      (s.scanBurst i n).retirement.area = s.retirement.area := by
  induction n generalizing s with
  | zero => simp [State.scanBurst]
  | succ n ih => unfold State.scanBurst; (repeat' split) <;> simp [ih]

@[simp] theorem State.slotExpiry_settings (s : State) :
    s.slotExpiry.memory.mtimeout = s.memory.mtimeout ∧ s.slotExpiry.memory.link = s.memory.link ∧
      s.slotExpiry.retirement.area = s.retirement.area ∧
      s.slotExpiry.patrol.scanEnabled = s.patrol.scanEnabled ∧
      s.slotExpiry.patrol.slotPeriod = s.patrol.slotPeriod ∧ s.slotExpiry.patrol.fill = s.patrol.fill := by
  unfold State.slotExpiry State.serveSlot; (repeat' split) <;> simp [State.nextSlot]

@[simp] theorem State.setFill_settings (f : Option Fill) (s : State) :
    (s.setFill f).patrol.scanEnabled = s.patrol.scanEnabled ∧
      (s.setFill f).patrol.slotPeriod = s.patrol.slotPeriod ∧ (s.setFill f).patrol.fill = f := ⟨rfl, rfl, rfl⟩

@[simp] theorem State.fillOne_settings (i : Fin 64) (f : Fill) (l : LineNo) (s : State) :
    (s.fillOne i f l).memory.mtimeout = s.memory.mtimeout ∧ (s.fillOne i f l).memory.link = s.memory.link ∧
      (s.fillOne i f l).retirement.area = s.retirement.area ∧
      (s.fillOne i f l).patrol.scanEnabled = s.patrol.scanEnabled ∧
      (s.fillOne i f l).patrol.slotPeriod = s.patrol.slotPeriod ∧
      (s.fillOne i f l).patrol.fill.map Fill.status = some f.status := by simp [State.fillOne, Fill.status]

/-- The fill that may issue is the one that is active. -/
theorem State.fillReady_fill {s : State} {i : Fin 64} {f : Fill} {l : LineNo} (h : s.fillReady = some (i, f, l)) :
    s.patrol.fill = some f := by
  unfold State.fillReady at h
  (repeat' split at h) <;> simp_all

@[simp] theorem State.fillSome_settings (n : Nat) (s : State) :
    (s.fillSome n).memory.mtimeout = s.memory.mtimeout ∧ (s.fillSome n).memory.link = s.memory.link ∧
      (s.fillSome n).retirement.area = s.retirement.area ∧
      (s.fillSome n).patrol.scanEnabled = s.patrol.scanEnabled ∧
      (s.fillSome n).patrol.slotPeriod = s.patrol.slotPeriod ∧
      (s.fillSome n).patrol.fill.map Fill.status = s.patrol.fill.map Fill.status := by
  induction n generalizing s with
  | zero => simp [State.fillSome]
  | succ n ih =>
    unfold State.fillSome
    split
    · rename_i h
      simp [ih, State.fillReady_fill h]
    · simp

@[simp] theorem State.fillIssue_settings (s : State) :
    s.fillIssue.memory.mtimeout = s.memory.mtimeout ∧ s.fillIssue.memory.link = s.memory.link ∧
      s.fillIssue.retirement.area = s.retirement.area ∧
      s.fillIssue.patrol.scanEnabled = s.patrol.scanEnabled ∧
      s.fillIssue.patrol.slotPeriod = s.patrol.slotPeriod ∧
      s.fillIssue.patrol.fill.map Fill.status = s.patrol.fill.map Fill.status := by
  unfold State.fillIssue; split <;> simp

@[simp] theorem State.endFilling_settings (i : Fin 32) (p : RegionPhase) (s : State) :
    (s.endFilling i p).patrol.scanEnabled = s.patrol.scanEnabled ∧
      (s.endFilling i p).patrol.slotPeriod = s.patrol.slotPeriod ∧ (s.endFilling i p).patrol.fill = none := by
  simp [State.endFilling]

@[simp] theorem State.fillAdvance_settings (f : Fill) (s : State) :
    (s.fillAdvance f).patrol.scanEnabled = s.patrol.scanEnabled ∧
      (s.fillAdvance f).patrol.slotPeriod = s.patrol.slotPeriod := by
  unfold State.fillAdvance
  (repeat' split) <;> simp [State.fillComplete, State.fillStopped, State.fillFailed]

@[simp] theorem State.fillWriteFailed_settings (l p : LineNo) (w : FillFailure) (s : State) :
    (s.fillWriteFailed l p w).patrol.scanEnabled = s.patrol.scanEnabled ∧
      (s.fillWriteFailed l p w).patrol.slotPeriod = s.patrol.slotPeriod := by
  unfold State.fillWriteFailed; split <;> simp

@[simp] theorem State.fillLost_settings (s : State) :
    s.fillLost.patrol.scanEnabled = s.patrol.scanEnabled ∧ s.fillLost.patrol.slotPeriod = s.patrol.slotPeriod ∧
      s.fillLost.patrol.fill = none := by
  unfold State.fillLost; split <;> simp [*]

@[simp] theorem State.copySucceed_settings (r : Option (Fin 32)) (s : State) :
    (s.copySucceed r).patrol.scanEnabled = s.patrol.scanEnabled ∧
      (s.copySucceed r).patrol.slotPeriod = s.patrol.slotPeriod ∧ (s.copySucceed r).patrol.fill = s.patrol.fill := by
  unfold State.copySucceed; split <;> simp

/-! ### The ends of entries and the completions -/

@[simp] theorem State.originFails_settings (e : Entry) (w : FillFailure) (s : State) :
    (s.originFails e w).patrol.scanEnabled = s.patrol.scanEnabled ∧
      (s.originFails e w).patrol.slotPeriod = s.patrol.slotPeriod := by
  unfold State.originFails; (repeat' split) <;> simp

@[simp] theorem State.lateCompletion_settings (i : Fin 64) (e : Entry) (b : Bool) (s : State) :
    (s.lateCompletion i e b).memory.mtimeout = s.memory.mtimeout ∧
      (s.lateCompletion i e b).memory.link = s.memory.link := by
  simp [State.lateCompletion, State.freeCredit]

end Sys2Proof.Machine
end

section
/-! SUPPORT. Steady operations: they leave the configuration as it is, the bounds of the spare area, the fill, and all of
a region but its counters and whether it is ONLINE or OFFLINE. Every operation outside the management unit is one, but a
scan burst, which moves a cursor, and what ends a fill. So are the commands that change no setting. -/

namespace Sys2Proof.Machine

/-! ### What a region is defined as -/

/-- All of a region that its definition gives (R1): the rest is at fixed values. -/
def Region.definition (r : Region) : Region :=
  { r with phase := .offline, stats := { corrected := 0, uncorrectable := 0, void := 0, refused := 0 }, cursor := 0,
           passes := 0 }

/-- A region but for its counters, and for which of ONLINE and OFFLINE it is. -/
def Region.outline (r : Region) : Region :=
  { r with phase := if r.phase = .filling then .filling else .offline,
           stats := { corrected := 0, uncorrectable := 0, void := 0, refused := 0 }, passes := 0 }

theorem Region.definition_of_outline {q r : Region} (h : q.outline = r.outline) : q.definition = r.definition :=
  congrArg (fun x : Region => { x with phase := .offline, cursor := 0 }) h

theorem Region.cursor_of_outline {q r : Region} (h : q.outline = r.outline) : q.cursor = r.cursor := by
  simpa [Region.outline] using congrArg Region.cursor h

theorem Region.filling_of_outline {q r : Region} (h : q.outline = r.outline) :
    q.phase = .filling ↔ r.phase = .filling := by
  have hp : (if q.phase = .filling then RegionPhase.filling else .offline)
      = if r.phase = .filling then .filling else .offline := congrArg Region.phase h
  by_cases hq : q.phase = .filling <;> by_cases hr : r.phase = .filling <;> simp_all

/-- A region is in order by its definition and its cursor. -/
theorem Region.Sound.of_definition {q r : Region} (h : r.Sound) (hd : q.definition = r.definition)
    (hc : q.base.toNat ≤ q.cursor.toNat ∧ q.cursor.toNat ≤ q.limit.toNat) : q.Sound where
  bounds := congrArg Region.base hd ▸ congrArg Region.limit hd ▸ h.bounds
  burst := congrArg Region.burst hd ▸ h.burst
  threshold := congrArg Region.threshold hd ▸ h.threshold
  cursor := hc

/-- What a region contains its definition says. -/
theorem Region.contains_of_definition {q r : Region} (hd : q.definition = r.definition) (l : LineNo) :
    q.contains l = r.contains l := by
  have hb : q.base = r.base := by simpa [Region.definition] using congrArg Region.base hd
  have hl : q.limit = r.limit := by simpa [Region.definition] using congrArg Region.limit hd
  rw [Region.contains, Region.contains, hb, hl]

/-- What a spare area contains its bounds say. -/
theorem SpareArea.contains_of_bounds {a b : SpareArea} (h : spareBounds (some a) = spareBounds (some b)) (l : LineNo) :
    a.contains l = b.contains l := by
  obtain ⟨hb, hn⟩ : a.base = b.base ∧ a.spares.length = b.spares.length := by simpa [spareBounds] using h
  rw [SpareArea.contains, SpareArea.contains, hb, hn]

/-! ### The relation -/

/-- `t` has the configuration of `s`: what a freeze protects (R170), and the definition of every region. -/
structure State.SameSetup (s t : State) : Prop where
  management : t.management = s.management
  mtimeout : t.memory.mtimeout = s.memory.mtimeout
  scanEnabled : t.patrol.scanEnabled = s.patrol.scanEnabled
  slotPeriod : t.patrol.slotPeriod = s.patrol.slotPeriod
  spares : spareBounds t.retirement.area = spareBounds s.retirement.area
  definition : ∀ i, (t.region i).map Region.definition = (s.region i).map Region.definition

/-- `t` is `s` in its configuration, its fill and the outline of its regions, and its memory link has not fallen. -/
structure State.Steady (s t : State) : Prop where
  management : t.management = s.management
  mtimeout : t.memory.mtimeout = s.memory.mtimeout
  scanEnabled : t.patrol.scanEnabled = s.patrol.scanEnabled
  slotPeriod : t.patrol.slotPeriod = s.patrol.slotPeriod
  spares : spareBounds t.retirement.area = spareBounds s.retirement.area
  fill : t.patrol.fill.map Fill.status = s.patrol.fill.map Fill.status
  link : t.memory.link = .down → s.memory.link = .down
  outline : ∀ i, (t.region i).map Region.outline = (s.region i).map Region.outline

/-- Regions with the same outline have the same definition. -/
theorem map_definition_of_outline {x y : Option Region} (h : x.map Region.outline = y.map Region.outline) :
    x.map Region.definition = y.map Region.definition := by
  cases x <;> cases y <;> simp_all
  exact Region.definition_of_outline h

theorem State.Steady.setup {s t : State} (h : s.Steady t) : s.SameSetup t where
  management := h.management
  mtimeout := h.mtimeout
  scanEnabled := h.scanEnabled
  slotPeriod := h.slotPeriod
  spares := h.spares
  definition i := map_definition_of_outline (h.outline i)

theorem State.Steady.refl (s : State) : s.Steady s := ⟨rfl, rfl, rfl, rfl, rfl, rfl, id, fun _ => rfl⟩

theorem State.Steady.trans {s t u : State} (h : s.Steady t) (k : t.Steady u) : s.Steady u where
  management := k.management.trans h.management
  mtimeout := k.mtimeout.trans h.mtimeout
  scanEnabled := k.scanEnabled.trans h.scanEnabled
  slotPeriod := k.slotPeriod.trans h.slotPeriod
  spares := k.spares.trans h.spares
  fill := k.fill.trans h.fill
  link := h.link ∘ k.link
  outline i := (k.outline i).trans (h.outline i)

theorem State.SameSetup.trans {s t u : State} (h : s.SameSetup t) (k : t.SameSetup u) : s.SameSetup u where
  management := k.management.trans h.management
  mtimeout := k.mtimeout.trans h.mtimeout
  scanEnabled := k.scanEnabled.trans h.scanEnabled
  slotPeriod := k.slotPeriod.trans h.slotPeriod
  spares := k.spares.trans h.spares
  definition i := (k.definition i).trans (h.definition i)

/-- An operation that keeps the region table, and the fields that are spoken of, is steady. -/
theorem State.Steady.of_fields {s t : State}
    (h : t.regions = s.regions ∧ t.management = s.management ∧ t.memory.mtimeout = s.memory.mtimeout ∧
      t.patrol.scanEnabled = s.patrol.scanEnabled ∧ t.patrol.slotPeriod = s.patrol.slotPeriod ∧
      spareBounds t.retirement.area = spareBounds s.retirement.area ∧
      t.patrol.fill.map Fill.status = s.patrol.fill.map Fill.status ∧
      (t.memory.link = .down → s.memory.link = .down)) : s.Steady t := by
  obtain ⟨hr, hm, ht, he, hp, ha, hf, hl⟩ := h
  exact ⟨hm, ht, he, hp, ha, hf, hl, fun i => by rw [State.region, State.region, hr]⟩

/-- Steady operations one after another are steady. -/
theorem State.Steady.foldl {α : Type} {f : State → α → State} (h : ∀ (t : State) (x : α), t.Steady (f t x)) (l : List α)
    (s : State) : s.Steady (l.foldl f s) := by
  induction l generalizing s with
  | nil => exact .refl s
  | cons x xs ih => exact (h s x).trans (ih _)

/-- A region that is changed in place, within its outline, is a steady change. -/
theorem State.modifyRegion_steady {f : Region → Region} (hf : ∀ r, (f r).outline = r.outline) (i : Fin 32) (s : State) :
    s.Steady (s.modifyRegion i f) where
  management := by simp
  mtimeout := by simp
  scanEnabled := by simp
  slotPeriod := by simp
  spares := by simp
  fill := by simp
  link := by simp
  outline j := by
    rw [State.region_modifyRegion]
    split
    · simp [Function.comp_def, hf]
    · rfl

/-- A region that is changed in place, within its definition, leaves the configuration. -/
theorem State.modifyRegion_setup {f : Region → Region} (hf : ∀ r, (f r).definition = r.definition) (i : Fin 32)
    (s : State) : s.SameSetup (s.modifyRegion i f) where
  management := by simp
  mtimeout := by simp
  scanEnabled := by simp
  slotPeriod := by simp
  spares := by simp
  definition j := by
    rw [State.region_modifyRegion]
    split
    · simp [Function.comp_def, hf]
    · rfl

/-- A region that is written back in another phase leaves the configuration. -/
theorem State.setPhase_setup {s : State} {i : Fin 32} {r : Region} (hr : s.region i = some r) (p : RegionPhase) :
    s.SameSetup (s.setRegion i (some { r with phase := p })) :=
  ⟨rfl, rfl, rfl, rfl, rfl, fun j => by
    rw [State.region_setRegion]
    split
    · subst j
      rw [hr]
      rfl
    · rfl⟩

/-- The end of a fill leaves the configuration. -/
theorem State.endFilling_setup (i : Fin 32) (p : RegionPhase) (s : State) : s.SameSetup (s.endFilling i p) :=
  have ended := State.modifyRegion_setup (f := fun r => { r with phase := p }) (fun _ => rfl) i s
  ended.trans ⟨rfl, rfl, rfl, rfl, rfl, fun _ => rfl⟩

/-! ### The operations that are steady -/

theorem State.ownershipPass_steady (s : State) : s.Steady s.ownershipPass := .of_fields (by simp)
theorem State.repairService_steady (s : State) : s.Steady s.repairService := .of_fields (by simp)
theorem State.fillIssue_steady (s : State) : s.Steady s.fillIssue := .of_fields (by simp)
theorem State.copyStart_steady (s : State) : s.Steady s.copyStart := .of_fields (by simp)
theorem State.issueGrant_steady (s : State) : s.Steady s.issueGrant := .of_fields (by simp)
theorem State.eventDelivery_steady (s : State) : s.Steady s.eventDelivery := .of_fields (by simp)
theorem State.closeEvent_steady (s : State) : s.Steady s.closeEvent := .of_fields (by simp)
theorem State.requesterHello_steady (s : State) : s.Steady s.requesterHello := .of_fields (by simp)
theorem State.transmitPacket_steady (s : State) : s.Steady s.transmitPacket := .of_fields (by simp)
theorem State.freeCredit_steady (i : Fin 64) (s : State) : s.Steady (s.freeCredit i) :=
  .of_fields (by simp [State.freeCredit])
theorem State.takeCommand_steady (rest : List Command) (s : State) : s.Steady (s.takeCommand rest) :=
  .of_fields (by simp)
theorem Reply.send_steady (c : Command) (r : Reply) : r.state.Steady (r.send c) := .of_fields (by simp [Reply.send])
theorem State.boundsChanged_steady (i : Fin 32) (old new : Region) (s : State) : s.Steady (s.boundsChanged i old new) :=
  .of_fields (by simp [State.boundsChanged])
theorem State.helloExpiry_steady (s : State) : s.Steady s.helloExpiry := by
  unfold State.helloExpiry
  split <;> exact .of_fields (by simp)
theorem State.memoryBad_steady (k : Byte) (n : Nat) (s : State) : s.Steady (s.memoryBad k n) := .of_fields (by simp)
theorem State.tick_steady (s : State) : s.Steady s.tick := .of_fields (by simp)
theorem State.pending_steady (q : List Instr) (s : State) : s.Steady { s with pending := q } := .of_fields (by simp)

theorem State.requesterFall_steady (w : Reason) (s : State) : s.Steady (s.requesterFall w) := by
  unfold State.requesterFall
  split <;> exact .of_fields (by simp)

theorem State.raise_steady (n : Notice) (s : State) : s.Steady (s.raise n) := .of_fields (by simp)

theorem State.release_steady (i : Fin 64) (s : State) : s.Steady (s.release i) := .of_fields (by simp)

theorem State.violation_steady (w : Reason) (s : State) : s.Steady (s.violation w) := by
  unfold State.violation
  split
  · exact .refl s
  · exact (State.raise_steady _ s).trans (State.requesterFall_steady _ _)

theorem State.requestArrives_steady (q : Request) (s : State) : s.Steady (s.requestArrives q) := by
  unfold State.requestArrives
  (repeat' split)
  · exact .refl s
  · exact .of_fields (by simp)
  · exact State.violation_steady _ s

theorem State.commandArrives_steady (c : Command) (s : State) : s.Steady (s.commandArrives c) := by
  unfold State.commandArrives
  (repeat' split)
  · exact .refl s
  · exact .of_fields (by simp)
  · exact State.violation_steady _ s

theorem State.requesterBad_steady (k : Byte) (n : Nat) (s : State) : s.Steady (s.requesterBad k n) := by
  unfold State.requesterBad
  (repeat' split)
  · exact s.requesterHello_steady
  · exact .refl s
  · exact .refl s
  all_goals exact State.violation_steady _ s

/-- A request that is decided, whatever the decision, touches a refusal counter at most. -/
theorem State.decideRequest_steady (q : Request) (i : Fin 64) (s : State) : s.Steady (s.decideRequest q i) := by
  unfold State.decideRequest
  (repeat' split)
  case h_4 r _ =>
    exact (State.modifyRegion_steady (f := Region.countRefused) (fun _ => rfl) r s).trans (.of_fields (by simp))
  all_goals exact .of_fields (by simp)

theorem State.acceptance_steady (s : State) : s.Steady s.acceptance := by
  unfold State.acceptance
  split
  · rename_i q rest i _ _
    have taken : s.Steady (s.takeRequest rest) := .of_fields (by simp)
    have decided : (s.takeRequest rest).Steady ((s.takeRequest rest).decideRequest q i) := State.decideRequest_steady ..
    exact (taken.trans decided).trans (.of_fields (by simp))
  · exact .refl s

theorem State.countRead_steady (t : Ticket) (e : Entry) (f : Finding) (s : State) : s.Steady (s.countRead t e f) := by
  unfold State.countRead
  split
  · exact .refl s
  · exact State.modifyRegion_steady (f := Region.countRead f) (fun r => by cases f <;> rfl) _ s

theorem State.readDecoded_steady (i : Fin 64) (e : Entry) (t : Ticket) (f : Finding) (d : Data) (s : State) :
    s.Steady (s.readDecoded i e t f d) := by
  have answered : s.Steady (s.respondEntry t f.status f.isCorrected d) := .of_fields (by simp)
  exact (answered.trans (State.countRead_steady t e f _)).trans (.of_fields (by simp [State.readDecoded]))

theorem State.readUnchecked_steady (i : Fin 64) (t : Ticket) (d : Data) (s : State) :
    s.Steady (s.readUnchecked i t d) :=
  .of_fields (by simp [State.readUnchecked])

theorem State.mergeUnchecked_steady (i : Fin 64) (e : Entry) (t : Ticket) (d : Data) (s : State) :
    s.Steady (s.mergeUnchecked i e t d) := by
  unfold State.mergeUnchecked
  split <;> exact .of_fields (by simp)

theorem State.mergeDecoded_steady (i : Fin 64) (e : Entry) (t : Ticket) (f : Finding) (d : Data) (s : State) :
    s.Steady (s.mergeDecoded i e t f d) := by
  unfold State.mergeDecoded
  (repeat' split) <;> exact .of_fields (by simp)

theorem State.patrolRead_steady (i : Fin 64) (e : Entry) (f : Finding) (d : Data) (s : State) :
    s.Steady (s.patrolRead i e f d) := .of_fields (by simp)

theorem State.copyRead_steady (i : Fin 64) (e : Entry) (f : Finding) (d : Data) (s : State) :
    s.Steady (s.copyRead i e f d) := by
  unfold State.copyRead
  split <;> exact .of_fields (by simp)

theorem State.readTaken_steady (i : Fin 64) (e : Entry) (x : StoredLine) (s : State) :
    s.Steady (s.readTaken i e x) := by
  unfold State.readTaken
  (repeat' split)
  · exact State.readUnchecked_steady _ _ _ s
  · exact State.readDecoded_steady _ _ _ _ _ s
  · exact State.mergeUnchecked_steady _ _ _ _ s
  · exact State.mergeDecoded_steady _ _ _ _ _ s
  · exact .refl s
  · exact State.patrolRead_steady _ _ _ _ s
  · exact State.patrolRead_steady _ _ _ _ s
  · exact .refl s
  · exact State.copyRead_steady _ _ _ _ s

/-- R21: what a memory-link up does to a region changes its outline nowhere: a FILLING region is not clipped. -/
theorem State.clipRegion_steady (n : Nat) (s : State) (i : Fin 32) : s.Steady (s.clipRegion n i) := by
  unfold State.clipRegion
  (repeat' split)
  · exact .refl s
  · rename_i r hr hc
    have hc : r.phase ≠ .filling := by simp [Region.clipped] at hc; exact hc.1
    have set : s.Steady (s.setRegion i (some { r with phase := .offline })) :=
      ⟨rfl, rfl, rfl, rfl, rfl, rfl, id, fun j => by
        rw [State.region_setRegion]
        split
        · subst j
          simp [hr, Region.outline, hc]
        · rfl⟩
    exact set.trans (State.raise_steady _ _)
  · exact .refl s

theorem State.memoryHello_steady (n : Byte) (k : BitVec 64) (s : State) : s.Steady (s.memoryHello n k) := by
  unfold State.memoryHello
  (repeat' split)
  · exact State.raise_steady _ s
  · have risen : s.Steady { s with memory := s.memory.rise n.toNat k.toNat } := .of_fields (by simp [MemoryPort.rise])
    have clipped (t : State) : t.Steady (t.clipRegions k.toNat) := .foldl (State.clipRegion_steady k.toNat) _ t
    have spares (t : State) : t.Steady (t.clipSpares k.toNat) := .of_fields (by simp)
    exact ((risen.trans (State.raise_steady _ _)).trans (clipped _)).trans (spares _)
  · exact State.raise_steady _ s

/-! ### The commands that are steady -/

theorem regionQuery_steady (b : ArgBlock) (s : State) : s.Steady (regionQuery b s).state := by
  unfold regionQuery
  split
  · rename_i i clear _ _
    cases clear
    · exact .refl s
    · exact State.modifyRegion_steady (f := Region.clearStats) (fun _ => rfl) i s
  · exact .refl s

theorem historyQuery_steady (b : ArgBlock) (s : State) : s.Steady (historyQuery b s).state := by
  dsimp only [historyQuery]
  split <;> exact .refl s

theorem historyClear_steady (b : ArgBlock) (s : State) : s.Steady (historyClear b s).state := by
  dsimp only [historyClear]
  (repeat' split) <;> exact .of_fields (by simp [refuse, done])

theorem spareMark_steady (b : ArgBlock) (s : State) : s.Steady (spareMark b s).state := by
  dsimp only [spareMark]
  (repeat' split) <;> exact .of_fields (by simp [refuse, done])

theorem retireLine_steady (r t : Byte) (b : ArgBlock) (s : State) : s.Steady (retireLine r t b s).state := by
  dsimp only [retireLine]
  split <;> exact .of_fields (by simp [refuse, started])

theorem retireCancel_steady (b : ArgBlock) (s : State) : s.Steady (retireCancel b s).state := by
  dsimp only [retireCancel]
  (repeat' split) <;> exact .of_fields (by simp [refuse, done, State.cancelRetire])

theorem retireLoad_steady (b : ArgBlock) (s : State) : s.Steady (retireLoad b s).state := by
  dsimp only [retireLoad]
  (repeat' split) <;> exact .of_fields (by simp [refuse, done, State.loadRetired])

theorem retireQuery_steady (b : ArgBlock) (s : State) : s.Steady (retireQuery b s).state := by
  dsimp only [retireQuery]
  (repeat' split) <;> exact .refl s

theorem eventGrant_steady (b : ArgBlock) (s : State) : s.Steady (eventGrant b s).state := by
  dsimp only [eventGrant]
  split <;> exact .of_fields (by simp [refuse, done])

end Sys2Proof.Machine
end

section
/-! SUPPORT. Lines, ranges and operands: when a range overlaps a region or the spare area, what the fields of a block
can hold, and what a region command that is not refused does. -/

namespace Sys2Proof.Machine

/-! ### Lines and ranges -/

theorem Region.contains_iff {r : Region} {l : LineNo} :
    r.contains l = true ↔ r.base.toNat ≤ l.toNat ∧ l.toNat ≤ r.limit.toNat := by simp [Region.contains]

theorem SpareArea.contains_iff {a : SpareArea} {l : LineNo} :
    a.contains l = true ↔ a.base.toNat ≤ l.toNat ∧ l.toNat < a.base.toNat + a.spares.length := by
  simp [SpareArea.contains]

theorem State.overlapsRegion_iff {s : State} {except : Option (Fin 32)} {base limit : Nat} :
    s.overlapsRegion except base limit = true ↔
      ∃ j x, some j ≠ except ∧ s.region j = some x ∧ x.base.toNat ≤ limit ∧ base ≤ x.limit.toNat := by
  simp only [State.overlapsRegion, List.any_eq_true, List.mem_finRange, true_and]
  refine exists_congr fun j => ?_
  by_cases hj : some j = except
  · simp [hj]
  · cases hr : s.region j <;> simp [hj]

theorem State.overlapsSpares_iff {s : State} {base limit : Nat} :
    s.overlapsSpares base limit = true ↔
      ∃ a, s.retirement.area = some a ∧ a.base.toNat ≤ limit ∧ base < a.base.toNat + a.spares.length := by
  cases ha : s.retirement.area <;> simp [State.overlapsSpares, ha]

/-- A range that overlaps no region shares no line with one. -/
theorem State.no_common_line {s : State} {except : Option (Fin 32)} {base limit : Nat} {j : Fin 32} {x : Region}
    {l : LineNo} (h : ¬s.overlapsRegion except base limit = true) (hj : some j ≠ except) (hx : s.region j = some x)
    (hl : base ≤ l.toNat ∧ l.toNat ≤ limit) : x.contains l = false := by
  refine Bool.eq_false_iff.2 fun hc => h (State.overlapsRegion_iff.2 ⟨j, x, hj, hx, ?_⟩)
  obtain ⟨hb, hl'⟩ := Region.contains_iff.1 hc
  omega

/-- A range that does not overlap the spare area has no line of it. -/
theorem State.no_common_spare {s : State} {base limit : Nat} {a : SpareArea} {l : LineNo}
    (h : ¬s.overlapsSpares base limit = true) (ha : s.retirement.area = some a)
    (hl : base ≤ l.toNat ∧ l.toNat ≤ limit) : a.contains l = false := by
  refine Bool.eq_false_iff.2 fun hc => h (State.overlapsSpares_iff.2 ⟨a, ha, ?_⟩)
  obtain ⟨hb, hl'⟩ := SpareArea.contains_iff.1 hc
  omega

/-! ### Operands -/

theorem argBurst_eq_some {b : ArgBlock} {n : Nat} : argBurst b = some n ↔ argNat b 7 1 = n ∧ 1 ≤ n ∧ n ≤ 16 := by
  unfold argBurst
  split <;> simp <;> omega

theorem argThreshold_eq_some {b : ArgBlock} {n : Nat} : argThreshold b = some n ↔ argNat b 8 1 = n ∧ n ≤ 15 := by
  unfold argThreshold
  split <;> simp <;> omega

/-- Each field of a region that an argument block describes is read from the block. -/
structure DescribedBy (b : ArgBlock) (r : Region) : Prop where
  mode : argMode b = some r.mode
  patrol : argFlag b 6 = some r.patrol
  burst : argBurst b = some r.burst
  threshold : argThreshold b = some r.threshold
  reports : argReports b = some (r.reportCorrections, r.reportPasses)
  fixed : argFlag b 10 = some r.fixed
  rights : argRights b = some r.rights
  base : r.base = argLine b 12
  limit : r.limit = argLine b 16
  phase : r.phase = .offline
  stats : r.stats = { corrected := 0, uncorrectable := 0, void := 0, refused := 0 }
  cursor : r.cursor = r.base
  passes : r.passes = 0

theorem argRegion_describedBy {b : ArgBlock} {r : Region} (h : argRegion b = some r) : DescribedBy b r := by
  unfold argRegion at h
  split at h
  · cases h
    exact ⟨‹_›, ‹_›, ‹_›, ‹_›, ‹_›, ‹_›, ‹_›, rfl, rfl, rfl, rfl, rfl, rfl⟩
  · cases h

/-- A region that a block describes, with its base no higher than its limit, is in order. -/
theorem DescribedBy.sound {b : ArgBlock} {r : Region} (h : DescribedBy b r) (hb : r.base.toNat ≤ r.limit.toNat) :
    r.Sound where
  bounds := hb
  burst := (argBurst_eq_some.1 h.burst).2
  threshold := (argThreshold_eq_some.1 h.threshold).2
  cursor := by simp [h.cursor, hb]

/-- A modified region has the named fields of the block, and a cursor at its base if R13 or R14 put it there. -/
theorem modifiedRegion_eq (b : ArgBlock) (r : Region) : modifiedRegion b r =
    { argModify b r with
      cursor := if argSelects b 0 = true ∨ ((argModify b r).patrol = true ∧ r.patrol = false) then (argModify b r).base
        else r.cursor } := by
  simp only [modifiedRegion, Bool.not_eq_true]
  split <;> rfl

/-- A modified region is in order if its base is no higher than its limit where they are named. -/
theorem modifiedRegion_sound {b : ArgBlock} {r : Region} (h : r.Sound)
    (hb : argSelects b 0 = true → (modifiedRegion b r).base.toNat ≤ (modifiedRegion b r).limit.toNat) :
    (modifiedRegion b r).Sound := by
  rw [modifiedRegion_eq] at hb ⊢
  have bounds : (argModify b r).base.toNat ≤ (argModify b r).limit.toNat := by
    by_cases h0 : argSelects b 0 = true
    · exact hb h0
    · simpa [argModify, h0] using h.bounds
  have burst : 1 ≤ (argModify b r).burst ∧ (argModify b r).burst ≤ 16 := by
    cases hn : argBurst b with
    | none => simpa [argModify, hn] using h.burst
    | some n =>
      have := (argBurst_eq_some.1 hn).2
      simp only [argModify, hn, Option.getD_some]
      split
      · exact this
      · exact h.burst
  have threshold : (argModify b r).threshold ≤ 15 := by
    cases hn : argThreshold b with
    | none => simpa [argModify, hn] using h.threshold
    | some n =>
      have := (argThreshold_eq_some.1 hn).2
      simp only [argModify, hn, Option.getD_some]
      split
      · exact this
      · exact h.threshold
  refine ⟨bounds, burst, threshold, ?_⟩
  dsimp only
  split
  · exact ⟨le_rfl, bounds⟩
  · rename_i hn
    have h0 : argSelects b 0 = false := by simpa using fun h0 => hn (.inl h0)
    simpa [argModify, h0] using h.cursor

/-- What a modified region keeps, whatever is named. -/
theorem modifiedRegion_kept (b : ArgBlock) (r : Region) :
    (modifiedRegion b r).phase = r.phase ∧ (modifiedRegion b r).stats = r.stats ∧
      (modifiedRegion b r).passes = r.passes := by
  rw [modifiedRegion_eq]
  exact ⟨rfl, rfl, rfl⟩

/-- A region whose bounds are not named contains the lines it contained. -/
theorem modifiedRegion_contains {b : ArgBlock} (h0 : argSelects b 0 = false) (r : Region) (l : LineNo) :
    (modifiedRegion b r).contains l = r.contains l := by
  simp [modifiedRegion_eq, argModify, Region.contains, h0]

/-! ### What the commands that touch regions, fill or spare area can do -/

theorem regionDefine_cases (b : ArgBlock) (s : State) : (regionDefine b s).state = s ∨
    ∃ i r, s.region i = none ∧ argRegion b = some r ∧ r.base.toNat ≤ r.limit.toNat ∧
      ¬s.overlapsRegion none r.base.toNat r.limit.toNat = true ∧ ¬s.overlapsSpares r.base.toNat r.limit.toNat = true ∧
      (regionDefine b s).state = s.setRegion i (some r) := by
  unfold regionDefine
  (repeat' split) <;> try exact .inl rfl
  rename_i i _ hi _ _ r hr hb ho _
  simp only [not_or, not_lt] at hb ho
  exact .inr ⟨i, r, by simpa using hi, hr, hb.1, ho.1, ho.2, rfl⟩

theorem regionModify_cases (b : ArgBlock) (s : State) : (regionModify b s).state = s ∨
    ∃ i r, s.region i = some r ∧
      (argSelects b 0 = true → r.phase = .offline ∧
        (modifiedRegion b r).base.toNat ≤ (modifiedRegion b r).limit.toNat ∧
        ¬s.overlapsRegion (some i) (modifiedRegion b r).base.toNat (modifiedRegion b r).limit.toNat = true ∧
        ¬s.overlapsSpares (modifiedRegion b r).base.toNat (modifiedRegion b r).limit.toNat = true) ∧
      (s.management.frozen = true → r.fixed = false) ∧
      (regionModify b s).state =
        if argSelects b 0 then (s.setRegion i (some (modifiedRegion b r))).boundsChanged i r (modifiedRegion b r)
        else s.setRegion i (some (modifiedRegion b r)) := by
  dsimp only [regionModify]
  (repeat' split) <;> try exact .inl rfl
  all_goals
    rename_i i _ _ r hr hp hb ho hf h0
    exact .inr ⟨i, r, hr, by simp_all, by simp_all, rfl⟩

theorem regionState_cases (b : ArgBlock) (s : State) : (regionState b s).state = s ∨
    ∃ i r target, s.region i = some r ∧ r.phase ≠ .filling ∧ target ≠ RegionPhase.filling ∧
      (regionState b s).state = s.setRegion i (some { r with phase := target }) := by
  unfold regionState
  (repeat' split) <;> try exact .inl rfl
  rename_i i target _ ht _ r hr hp _ _
  refine .inr ⟨i, r, target, hr, hp, ?_, rfl⟩
  unfold argTarget at ht
  (repeat' split at ht) <;> cases ht <;> simp

theorem regionRemove_cases (b : ArgBlock) (s : State) : (regionRemove b s).state = s ∨
    ∃ i r, s.region i = some r ∧ r.phase = .offline ∧ (s.management.frozen = true → r.fixed = false) ∧
      (regionRemove b s).state = s.regionRemoved i r := by
  unfold regionRemove
  (repeat' split) <;> try exact .inl rfl
  rename_i i _ _ r hr hp _ hf
  exact .inr ⟨i, r, hr, by simpa using hp, fun hz => by simpa [hz] using hf, rfl⟩

theorem fillStart_cases (b : ArgBlock) (s : State) : (fillStart b s).state = s ∨
    ∃ i r, s.region i = some r ∧ s.patrol.fill = none ∧ s.memory.link = .up ∧
      (fillStart b s).state = s.startFill i r := by
  unfold fillStart
  (repeat' split) <;> try exact .inl rfl
  rename_i i _ _ r hr _ _ hf hl _ _
  refine .inr ⟨i, r, hr, by simpa using hf, ?_, rfl⟩
  cases h : s.memory.link
  · exact absurd h hl
  · rfl

theorem fillStop_cases (b : ArgBlock) (s : State) : (fillStop b s).state = s ∨
    ∃ f, s.patrol.fill = some f ∧ f.phase = .issuing ∧
      (fillStop b s).state = s.fillAdvance { f with phase := .stopping } := by
  unfold fillStop
  (repeat' split) <;> try exact .inl rfl
  rename_i f hf hp
  exact .inr ⟨f, hf, by simpa using hp, rfl⟩

theorem spareSet_cases (b : ArgBlock) (s : State) : (spareSet b s).state = s ∨
    ∃ base count, 0 < count ∧ s.management.frozen = false ∧
      ¬s.overlapsRegion none base.toNat (base.toNat + count - 1) = true ∧
      (spareSet b s).state =
        { s with retirement :=
            { s.retirement with area := some { base := base, spares := List.replicate count .free }
                                unavailable := false } } := by
  dsimp only [spareSet]
  (repeat' split) <;> try exact .inl rfl
  rename_i hc _ _ _ _ _ ho hz
  exact .inr ⟨_, _, by omega, by simpa using hz, ho, rfl⟩

theorem patrolSet_cases (b : ArgBlock) (s : State) : (patrolSet b s).state = s ∨
    ∃ e n, s.management.frozen = false ∧
      (patrolSet b s).state =
        { s with patrol := { s.patrol with scanEnabled := e, slotPeriod := n, slotStart := s.now } } := by
  dsimp only [patrolSet]
  (repeat' split) <;> try exact .inl rfl
  rename_i hz
  exact .inr ⟨_, _, by simpa using hz, rfl⟩

theorem timeoutSet_cases (b : ArgBlock) (s : State) : (timeoutSet b s).state = s ∨
    ∃ v, s.management.frozen = false ∧
      (timeoutSet b s).state = { s with memory := { s.memory with mtimeout := v } } := by
  dsimp only [timeoutSet]
  (repeat' split) <;> try exact .inl rfl
  rename_i hz
  exact .inr ⟨_, by simpa using hz, rfl⟩

theorem managerSet_cases (b : ArgBlock) (s : State) : (managerSet b s).state = s ∨
    ∃ m, s.management.frozen = false ∧ (managerSet b s).state = s.changeManager m := by
  dsimp only [managerSet]
  (repeat' split) <;> try exact .inl rfl
  rename_i hz
  exact .inr ⟨_, by simpa using hz, rfl⟩

end Sys2Proof.Machine
end

section
/-! SUPPORT. Regions and fill stay in order (O57): every operation of the bridge keeps the laws of the region table and of
the fill. Steady operations keep them by their kind; the others are a scan burst, the ends of a fill, and the commands. -/

namespace Sys2Proof.Machine

/-- The laws of the region table and of the fill together (R3, R106). -/
def State.RegionsAndFill (s : State) : Prop := s.RegionsSound ∧ s.FillSound

/-- Whether a region is FILLING. -/
def Region.isFilling (r : Region) : Bool := decide (r.phase = .filling)

/-! ### What the laws speak of -/

/-- A region of `t` whose table agrees with that of `s` under `f` comes from a region of `s`. -/
theorem region_of_map {α : Type} {f : Region → α} {x y : Option Region} (h : x.map f = y.map f) {q : Region}
    (hq : x = some q) : ∃ r, y = some r ∧ f q = f r := by
  subst hq
  cases y with
  | none => cases h
  | some r => exact ⟨r, rfl, Option.some.inj h⟩

/-- The spare area of `t` with the bounds of that of `s` contains the same lines. -/
theorem area_of_bounds {x y : Option SpareArea} (h : spareBounds x = spareBounds y) {a : SpareArea} (ha : x = some a) :
    ∃ b, y = some b ∧ ∀ l, a.contains l = b.contains l := by
  subst ha
  cases y with
  | none => cases h
  | some b => exact ⟨b, rfl, SpareArea.contains_of_bounds h⟩

/-- The law of the region table follows from the configuration, if every cursor is in its region. -/
theorem State.RegionsSound.of_setup {s t : State} (h : s.RegionsSound) (e : s.SameSetup t)
    (hc : ∀ i r, t.region i = some r → r.base.toNat ≤ r.cursor.toNat ∧ r.cursor.toNat ≤ r.limit.toNat) :
    t.RegionsSound where
  each i q hq := by
    obtain ⟨r, hr, hd⟩ := region_of_map (e.definition i) hq
    exact (h.each i r hr).of_definition hd (hc i q hq)
  apart i j qi qj l hi hj ci cj := by
    obtain ⟨ri, hri, di⟩ := region_of_map (e.definition i) hi
    obtain ⟨rj, hrj, dj⟩ := region_of_map (e.definition j) hj
    exact h.apart i j ri rj l hri hrj
      (Region.contains_of_definition di l ▸ ci) (Region.contains_of_definition dj l ▸ cj)
  spares i q a l hq ha hl := by
    obtain ⟨r, hr, hd⟩ := region_of_map (e.definition i) hq
    obtain ⟨b, hb, hab⟩ := area_of_bounds e.spares ha
    exact (hab l).trans (h.spares i r b l hr hb (Region.contains_of_definition hd l ▸ hl))

/-- The law of the fill follows from the fill's status, which regions are FILLING, and the memory link. -/
theorem State.FillSound.of_status {s t : State} (h : s.FillSound)
    (hf : t.patrol.fill.map Fill.status = s.patrol.fill.map Fill.status)
    (hl : t.memory.link = .down → s.patrol.fill = none)
    (hr : ∀ i, (t.region i).map Region.isFilling = (s.region i).map Region.isFilling) : t.FillSound := by
  have sameFill : ∀ {g}, t.patrol.fill = some g → ∃ f, s.patrol.fill = some f ∧ g.status = f.status := by
    intro g hg
    cases hs : s.patrol.fill <;> simp_all
  have sameFill' : ∀ {f}, s.patrol.fill = some f → ∃ g, t.patrol.fill = some g ∧ g.status = f.status := by
    intro f hg
    cases ht : t.patrol.fill <;> simp_all
  have sameRegion {g f : Fill} (e : g.status = f.status) : g.region = f.region := congrArg (fun x => x.2.1) e
  refine ⟨fun g hg => ?_, fun i q hq => ?_, fun hd => ?_, fun g hg => ?_⟩
  · obtain ⟨f, hs, e⟩ := sameFill hg
    obtain ⟨r, hfr⟩ := h.region f hs
    obtain ⟨q, hq, -⟩ := region_of_map (hr f.region).symm hfr
    exact ⟨q, sameRegion e ▸ hq⟩
  · obtain ⟨r, hs, e⟩ := region_of_map (hr i) hq
    have phases : q.phase = .filling ↔ r.phase = .filling := by simpa [Region.isFilling] using e
    rw [phases, h.filling i r hs]
    constructor
    · rintro ⟨f, hsf, rfl⟩
      obtain ⟨g, hg, e⟩ := sameFill' hsf
      exact ⟨g, hg, sameRegion e⟩
    · rintro ⟨g, hg, rfl⟩
      obtain ⟨f, hsf, e⟩ := sameFill hg
      exact ⟨f, hsf, (sameRegion e).symm⟩
  · simpa [hl hd] using hf
  · obtain ⟨f, hs, e⟩ := sameFill hg
    have phases : g.phase = f.phase := congrArg (fun x => x.1) e
    have failed : g.failed.isSome = f.failed.isSome := congrArg (fun x => x.2.2) e
    rw [phases, failed]
    exact h.failed f hs

/-- A steady operation keeps both laws. -/
theorem State.RegionsAndFill.of_steady {s t : State} (hs : s.RegionsAndFill) (h : s.Steady t) : t.RegionsAndFill := by
  refine ⟨hs.1.of_setup h.setup fun i q hq => ?_, hs.2.of_status h.fill (hs.2.down ∘ h.link) fun i => ?_⟩
  · obtain ⟨r, hr, e⟩ := region_of_map (h.outline i) hq
    have hd := Region.definition_of_outline e
    rw [Region.cursor_of_outline e]
    exact congrArg Region.base hd ▸ congrArg Region.limit hd ▸ (hs.1.each i r hr).cursor
  · have e := h.outline i
    cases ht : t.region i <;> cases hr : s.region i <;> simp_all [Region.isFilling]
    exact Region.filling_of_outline e

/-! ### Cursors that move -/

/-- A region whose cursor alone moves, and stays in it, keeps both laws. -/
theorem State.RegionsAndFill.modifyRegion {s : State} (hs : s.RegionsAndFill) (i : Fin 32) (f : Region → Region)
    (hd : ∀ r, (f r).definition = r.definition) (hp : ∀ r, (f r).phase = r.phase)
    (hc : ∀ r, s.region i = some r → r.Sound →
      (f r).base.toNat ≤ (f r).cursor.toNat ∧ (f r).cursor.toNat ≤ (f r).limit.toNat) :
    (s.modifyRegion i f).RegionsAndFill := by
  refine ⟨hs.1.of_setup (State.modifyRegion_setup hd i s) fun j q hq => ?_,
    hs.2.of_status (by simp) (by simpa using hs.2.down) fun j => ?_⟩
  · rw [State.region_modifyRegion] at hq
    split at hq
    · subst j
      obtain ⟨r, hr, rfl⟩ := Option.map_eq_some_iff.1 hq
      exact hc r hr (hs.1.each i r hr)
    · exact (hs.1.each j q hq).cursor
  · rw [State.region_modifyRegion]
    split
    · simp only [Option.map_map, Function.comp_def, Region.isFilling, hp]
      rfl
    · rfl

theorem State.RegionsAndFill.scanBurst {s : State} (hs : s.RegionsAndFill) (i : Fin 32) (n : Nat) :
    (s.scanBurst i n).RegionsAndFill := by
  induction n generalizing s with
  | zero => exact hs
  | succ n ih =>
    unfold State.scanBurst
    split
    · rename_i r slot hr _
      have created : (s.create slot (scanEntry i r.cursor)).RegionsAndFill := hs.of_steady (.of_fields (by simp))
      have atRegion : (s.create slot (scanEntry i r.cursor)).region i = some r := by simpa [State.region] using hr
      dsimp only
      split
      · have wrapped := created.modifyRegion i (fun r => { r with cursor := r.base, passes := r.passes + 1 })
          (fun _ => rfl) (fun _ => rfl) fun r _ h => ⟨le_rfl, h.bounds⟩
        split
        · exact wrapped.of_steady (State.raise_steady _ _)
        · exact wrapped
      · rename_i hne
        refine ih (created.modifyRegion i _ (fun _ => rfl) (fun _ => rfl) fun q hq h => ?_)
        obtain rfl : q = r := by simpa [atRegion, eq_comm] using hq
        have := h.cursor
        have : q.cursor.toNat ≠ q.limit.toNat := fun e => hne (BitVec.eq_of_toNat_eq e)
        have : (q.cursor + 1).toNat = q.cursor.toNat + 1 := by bv_omega
        dsimp only
        omega
    · exact hs

theorem State.RegionsAndFill.slotExpiry {s : State} (hs : s.RegionsAndFill) : s.slotExpiry.RegionsAndFill := by
  have next : s.nextSlot.RegionsAndFill := hs.of_steady (.of_fields (by simp [State.nextSlot]))
  unfold State.slotExpiry State.serveSlot
  (repeat' split)
  · exact next
  · exact State.RegionsAndFill.scanBurst (next.of_steady (.of_fields (by simp))) _ _
  · exact next
  · exact hs

/-! ### The ends of a fill -/

/-- The active fill goes on, in its region, with a failed line exactly if it is FAILING. -/
theorem State.RegionsAndFill.setFill {s : State} (hs : s.RegionsAndFill) {f g : Fill} (hg : s.patrol.fill = some g)
    (hr : f.region = g.region) (hf : f.failed.isSome ↔ f.phase = .failing) : (s.setFill (some f)).RegionsAndFill := by
  refine ⟨hs.1.of_setup ⟨rfl, rfl, rfl, rfl, rfl, fun _ => rfl⟩ fun i r h => (hs.1.each i r h).cursor, ?_⟩
  refine ⟨?_, fun i r h => ?_, fun hd => ?_, ?_⟩
  · rintro _ ⟨rfl⟩
    exact hr ▸ hs.2.region g hg
  · rw [hs.2.filling i r h]
    simp [hg, hr]
  · have := hs.2.down hd
    simp [hg] at this
  · rintro _ ⟨rfl⟩
    exact hf

/-- The active fill ends, and its region is FILLING no longer. -/
theorem State.RegionsAndFill.endFilling {s : State} (hs : s.RegionsAndFill) {g : Fill} {p : RegionPhase}
    (hg : s.patrol.fill = some g) (hp : p ≠ .filling) : (s.endFilling g.region p).RegionsAndFill := by
  have table (j : Fin 32) : (s.endFilling g.region p).region j
      = if g.region = j then (s.region j).map fun r => { r with phase := p } else s.region j :=
    State.region_modifyRegion ..
  refine ⟨hs.1.of_setup (State.endFilling_setup g.region p s) fun j q hq => ?_,
    ⟨by simp, fun j q hq => ?_, by simp, by simp⟩⟩
  · rw [table] at hq
    split at hq
    · obtain ⟨r, hr, rfl⟩ := Option.map_eq_some_iff.1 hq
      exact (hs.1.each j r hr).cursor
    · exact (hs.1.each j q hq).cursor
  · rw [table] at hq
    split at hq
    · obtain ⟨r, hr, rfl⟩ := Option.map_eq_some_iff.1 hq
      simp [hp]
    · rename_i hne
      have := hs.2.filling j q hq
      simp_all

theorem State.RegionsAndFill.fillAdvance {s : State} (hs : s.RegionsAndFill) {f g : Fill} (hg : s.patrol.fill = some g)
    (hr : f.region = g.region) (hf : f.failed.isSome ↔ f.phase = .failing) : (s.fillAdvance f).RegionsAndFill := by
  have goesOn := hs.setFill hg hr hf
  have ended {p : RegionPhase} (hp : p ≠ .filling) : (s.endFilling f.region p).RegionsAndFill :=
    hr ▸ hs.endFilling hg hp
  unfold State.fillAdvance
  (repeat' split)
  · exact ((ended (by simp)).modifyRegion f.region (fun r => { r with cursor := r.base }) (fun _ => rfl) (fun _ => rfl)
      fun _ _ h => ⟨le_rfl, h.bounds⟩).of_steady (State.raise_steady _ _)
  · exact goesOn
  · exact (ended (by simp)).of_steady (State.raise_steady _ _)
  · exact goesOn
  · exact (ended (by simp)).of_steady (State.raise_steady _ _)
  · exact goesOn

theorem State.RegionsAndFill.fillAcknowledged {s : State} (hs : s.RegionsAndFill) (l : LineNo) :
    (s.fillAcknowledged l).RegionsAndFill := by
  unfold State.fillAcknowledged
  split
  · exact hs
  · rename_i f hf
    exact hs.fillAdvance hf rfl (hs.2.failed f hf)

theorem State.RegionsAndFill.fillWriteFailed {s : State} (hs : s.RegionsAndFill) (l p : LineNo) (w : FillFailure) :
    (s.fillWriteFailed l p w).RegionsAndFill := by
  unfold State.fillWriteFailed
  split
  · exact hs
  · rename_i f hf
    refine hs.fillAdvance hf rfl ?_
    have := hs.2.failed f hf
    by_cases h : f.phase = .failing <;> simp_all [Fill.fail]

theorem State.RegionsAndFill.fillLost {s : State} (hs : s.RegionsAndFill) : s.fillLost.RegionsAndFill := by
  unfold State.fillLost
  split
  · exact hs
  · rename_i f hf
    exact (hs.endFilling hf (by simp)).of_steady (State.raise_steady _ _)

/-! ### Completions, the timeout and the loss of the memory link -/

theorem State.RegionsAndFill.originFails {s : State} (hs : s.RegionsAndFill) (e : Entry) (w : FillFailure) :
    (s.originFails e w).RegionsAndFill := by
  unfold State.originFails
  split
  · exact hs.of_steady (.of_fields (by simp))
  · exact hs
  · exact hs
  · exact hs.fillWriteFailed _ _ _
  · exact hs.of_steady (.of_fields (by simp))

theorem State.RegionsAndFill.writeTaken {s : State} (hs : s.RegionsAndFill) (i : Fin 64) (e : Entry) :
    (s.writeTaken i e).RegionsAndFill := by
  unfold State.writeTaken
  split
  · exact hs.of_steady (.of_fields (by simp [State.writeDone]))
  · exact hs.of_steady (.of_fields (by simp))
  · exact hs.of_steady (.of_fields (by simp))
  · exact State.RegionsAndFill.fillAcknowledged (hs.of_steady (.of_fields (by simp))) _
  · exact hs.of_steady (.of_fields (by simp))

theorem State.RegionsAndFill.completion {s : State} (hs : s.RegionsAndFill) (op : MemoryOp) (tag status : Byte)
    {finish : Fin 64 → Entry → State → State} (hf : ∀ i e t, t.RegionsAndFill → (finish i e t).RegionsAndFill) :
    (s.completion op tag status finish).RegionsAndFill := by
  have unmatched (w : Reason) : (s.unmatched tag w).RegionsAndFill := hs.of_steady (State.raise_steady _ s)
  unfold State.completion
  (repeat' split)
  · exact hs
  · exact unmatched _
  · exact unmatched _
  · exact unmatched _
  · exact hs.of_steady (.of_fields (by simp))
  · exact hf _ _ _ (hs.of_steady (State.freeCredit_steady _ s))
  · have freed (i : Fin 64) (n : Notice) : ((s.freeCredit i).raise n).RegionsAndFill :=
      hs.of_steady ((State.freeCredit_steady i s).trans (State.raise_steady n _))
    exact ((freed _ _).originFails _ _).of_steady (State.release_steady _ _)

theorem State.RegionsAndFill.timeoutExpiry {s : State} (hs : s.RegionsAndFill) (i : Fin 64) :
    (s.timeoutExpiry i).RegionsAndFill := by
  unfold State.timeoutExpiry
  split
  · exact hs
  · exact State.RegionsAndFill.originFails (hs.of_steady (.of_fields (by simp))) _ _

/-- What the end of a fill at a memory-link loss does to the region table does not depend on the memory port. -/
theorem State.fillLost_regions {s t : State} (hr : t.regions = s.regions) (hp : t.patrol = s.patrol) :
    t.fillLost.regions = s.fillLost.regions := by
  have modified (i : Fin 32) (f : Region → Region) : (t.modifyRegion i f).regions = (s.modifyRegion i f).regions := by
    have h : t.region i = s.region i := by rw [State.region, State.region, hr]
    unfold State.modifyRegion
    rw [h]
    split <;> simp [hr]
  unfold State.fillLost
  rw [hp]
  split
  · exact hr
  · simp [State.endFilling, modified]

/-- R73, R115: the fill ends before the link is DOWN for good; nothing after it starts another. -/
theorem State.RegionsAndFill.memoryLoss {s : State} (hs : s.RegionsAndFill) (w : Reason) :
    (s.memoryLoss w).RegionsAndFill := by
  unfold State.memoryLoss
  split
  · exact hs
  · have table := State.fillLost_regions (s := s)
      (t := State.raise { kind := .memoryLinkDown, reason := some w } { s with memory := s.memory.fall s.now }) rfl rfl
    refine ⟨hs.fillLost.1.of_setup ⟨by simp, by simp [MemoryPort.fall], by simp, by simp, by simp, fun i => ?_⟩
        fun i r h => ?_, hs.fillLost.2.of_status (by simp) (by simp) fun i => ?_⟩
    · simp [State.region, table]
    · exact (hs.fillLost.1.each i r (by simpa [State.region, table] using h)).cursor
    · simp [State.region, table]

end Sys2Proof.Machine
end

section
/-! SUPPORT. The management commands keep the laws of the region table and of the fill, each by what it can do; with the
operations before, every step keeps them (O57). -/

namespace Sys2Proof.Machine

/-! ### One entry of the region table is written -/

/-- An entry that is not FILLING is replaced by one that is not, is in order, and shares no line with another region or
the spare area. -/
theorem State.RegionsAndFill.setRegion {s : State} (hs : s.RegionsAndFill) (i : Fin 32) (x : Option Region)
    (old : ∀ r, s.region i = some r → r.phase ≠ .filling)
    (new : ∀ r, x = some r → r.phase ≠ .filling ∧ r.Sound)
    (apart : ∀ r j q l, x = some r → j ≠ i → s.region j = some q → r.contains l = true → q.contains l = false)
    (spares : ∀ r a l, x = some r → s.retirement.area = some a → r.contains l = true → a.contains l = false) :
    (s.setRegion i x).RegionsAndFill := by
  have at' (j : Fin 32) : (s.setRegion i x).region j = if i = j then x else s.region j := State.region_setRegion ..
  have elsewhere {f : Fill} (hf : s.patrol.fill = some f) : i ≠ f.region := by
    rintro rfl
    obtain ⟨r, hr⟩ := hs.2.region f hf
    exact old r hr ((hs.2.filling _ r hr).2 ⟨f, hf, rfl⟩)
  refine ⟨⟨fun j q hq => ?_, fun j k q r l hj hk cq cr => ?_, fun j q a l hq ha hl => ?_⟩,
    ⟨fun f hf => ?_, fun j q hq => ?_, hs.2.down, hs.2.failed⟩⟩
  · rw [at'] at hq
    split at hq
    · exact (new q hq).2
    · exact hs.1.each j q hq
  · rw [at'] at hj hk
    split at hj <;> split at hk
    · exact ‹i = j›.symm.trans ‹i = k›
    · simp [apart q k r l hj (Ne.symm ‹i ≠ k›) hk cq] at cr
    · simp [apart r j q l hk (Ne.symm ‹i ≠ j›) hj cr] at cq
    · exact hs.1.apart j k q r l hj hk cq cr
  · rw [at'] at hq
    split at hq
    · exact spares q a l hq ha hl
    · exact hs.1.spares j q a l hq ha hl
  · rw [at', if_neg (elsewhere hf)]
    exact hs.2.region f hf
  · rw [at'] at hq
    split at hq
    · subst j
      exact ⟨fun h => absurd h (new q hq).1, fun ⟨f, hf, e⟩ => absurd e.symm (elsewhere hf)⟩
    · exact hs.2.filling j q hq

/-- A region is replaced by one that contains the same lines, is in order, and is FILLING exactly if the other is. -/
theorem State.RegionsAndFill.replaceRegion {s : State} (hs : s.RegionsAndFill) {i : Fin 32} {r q : Region}
    (hr : s.region i = some r) (hp : q.phase = .filling ↔ r.phase = .filling) (hq : q.Sound)
    (hc : ∀ l, q.contains l = r.contains l) : (s.setRegion i (some q)).RegionsAndFill := by
  have replaced {j : Fin 32} {x : Region} (hx : (s.setRegion i (some q)).region j = some x) :
      ∃ y, s.region j = some y ∧ (x.phase = .filling ↔ y.phase = .filling) ∧ x.Sound ∧
        ∀ l, x.contains l = y.contains l := by
    rw [State.region_setRegion] at hx
    split at hx
    · subst j
      cases hx
      exact ⟨r, hr, hp, hq, hc⟩
    · exact ⟨x, hx, .rfl, hs.1.each j x hx, fun _ => rfl⟩
  refine ⟨⟨fun j x hx => ?_, fun j k x y l hj hk cx cy => ?_, fun j x a l hx ha hl => ?_⟩,
    ⟨fun f hf => ?_, fun j x hx => ?_, hs.2.down, hs.2.failed⟩⟩
  · obtain ⟨_, _, _, sound, _⟩ := replaced hx
    exact sound
  · obtain ⟨x', hx', -, -, ex⟩ := replaced hj
    obtain ⟨y', hy', -, -, ey⟩ := replaced hk
    exact hs.1.apart j k x' y' l hx' hy' (ex l ▸ cx) (ey l ▸ cy)
  · obtain ⟨x', hx', -, -, ex⟩ := replaced hx
    exact hs.1.spares j x' a l hx' ha (ex l ▸ hl)
  · rw [State.region_setRegion]
    split
    · exact ⟨q, rfl⟩
    · exact hs.2.region f hf
  · obtain ⟨x', hx', phases, -, -⟩ := replaced hx
    exact phases.trans (hs.2.filling j x' hx')

/-! ### Each command keeps the laws -/

theorem State.RegionsAndFill.regionDefine {s : State} (hs : s.RegionsAndFill) (b : ArgBlock) :
    (regionDefine b s).state.RegionsAndFill := by
  obtain e | ⟨i, r, hi, hr, hb, ho, ha, e⟩ := regionDefine_cases b s
  · rwa [e]
  · rw [e]
    have described := argRegion_describedBy hr
    refine hs.setRegion i _ (by simp [hi]) ?_ ?_ ?_
    · rintro _ ⟨rfl⟩
      exact ⟨by simp [described.phase], described.sound hb⟩
    · rintro _ j q l ⟨rfl⟩ _ hq hl
      exact State.no_common_line ho (by simp) hq (Region.contains_iff.1 hl)
    · rintro _ a l ⟨rfl⟩ harea hl
      exact State.no_common_spare ha harea (Region.contains_iff.1 hl)

theorem State.RegionsAndFill.regionModify {s : State} (hs : s.RegionsAndFill) (b : ArgBlock) :
    (regionModify b s).state.RegionsAndFill := by
  obtain e | ⟨i, r, hr, hb, -, e⟩ := regionModify_cases b s
  · rwa [e]
  · rw [e]
    have sound := modifiedRegion_sound (hs.1.each i r hr) fun h0 => (hb h0).2.1
    obtain ⟨phase, -, -⟩ := modifiedRegion_kept b r
    split
    · rename_i h0
      obtain ⟨offline, -, ho, ha⟩ := hb h0
      refine State.RegionsAndFill.of_steady (hs.setRegion i (some (modifiedRegion b r)) ?_ ?_ ?_ ?_)
        (State.boundsChanged_steady _ _ _ _)
      · simp [hr, offline]
      · rintro _ ⟨rfl⟩
        exact ⟨by simp [phase, offline], sound⟩
      · rintro _ j q l ⟨rfl⟩ hj hq hl
        exact State.no_common_line ho (by simpa using hj) hq (Region.contains_iff.1 hl)
      · rintro _ a l ⟨rfl⟩ harea hl
        exact State.no_common_spare ha harea (Region.contains_iff.1 hl)
    · rename_i h0
      exact hs.replaceRegion hr (by rw [phase]) sound (modifiedRegion_contains (by simpa using h0) r)

theorem State.RegionsAndFill.regionState {s : State} (hs : s.RegionsAndFill) (b : ArgBlock) :
    (regionState b s).state.RegionsAndFill := by
  obtain e | ⟨i, r, target, hr, hf, ht, e⟩ := regionState_cases b s
  · rwa [e]
  · rw [e]
    obtain ⟨bounds, burst, threshold, cursor⟩ := hs.1.each i r hr
    exact hs.replaceRegion hr (by simp [hf, ht]) ⟨bounds, burst, threshold, cursor⟩ fun _ => rfl

theorem State.RegionsAndFill.regionRemove {s : State} (hs : s.RegionsAndFill) (b : ArgBlock) :
    (regionRemove b s).state.RegionsAndFill := by
  obtain e | ⟨i, r, hr, hp, -, e⟩ := regionRemove_cases b s
  · rwa [e]
  · rw [e]
    have forgotten : ((s.forgetHistory fun e => e.region = i).dropRepairs r.contains).RegionsAndFill :=
      hs.of_steady (.of_fields (by simp))
    refine forgotten.setRegion i none (fun q hq => ?_) (by simp) (by simp) (by simp)
    obtain rfl : q = r := by simpa [State.region, hr, eq_comm] using hq.symm.trans hr
    simp [hp]

/-- R108: with no fill active and the link UP, a fill begins on a region, which is FILLING from then on. -/
theorem State.RegionsAndFill.beginFill {s : State} (hs : s.RegionsAndFill) {i : Fin 32} {r : Region} {f : Fill}
    (hr : s.region i = some r) (hf : s.patrol.fill = none) (hl : s.memory.link = .up) (hi : f.region = i)
    (hn : f.failed.isSome ↔ f.phase = .failing) :
    ((s.setRegion i (some { r with phase := .filling })).setFill (some f)).RegionsAndFill := by
  have table (j : Fin 32) : ((s.setRegion i (some { r with phase := .filling })).setFill (some f)).region j
      = if i = j then some { r with phase := .filling } else s.region j := State.region_setRegion ..
  refine ⟨hs.1.of_setup ((State.setPhase_setup hr _).trans ⟨rfl, rfl, rfl, rfl, rfl, fun _ => rfl⟩) fun j q hq => ?_,
    ⟨?_, fun j q hq => ?_, fun hd => ?_, ?_⟩⟩
  · rw [table] at hq
    split at hq
    · cases hq
      exact (hs.1.each i r hr).cursor
    · exact (hs.1.each j q hq).cursor
  · rintro _ ⟨rfl⟩
    exact ⟨_, by rw [table, if_pos hi.symm]⟩
  · rw [table] at hq
    split at hq
    · cases hq
      simp [hi, ‹i = j›]
    · have := hs.2.filling j q hq
      simp_all
  · simp [hl] at hd
  · rintro _ ⟨rfl⟩
    exact hn

theorem State.RegionsAndFill.fillStart {s : State} (hs : s.RegionsAndFill) (b : ArgBlock) :
    (fillStart b s).state.RegionsAndFill := by
  obtain e | ⟨i, r, hr, hf, hl, e⟩ := fillStart_cases b s
  · rwa [e]
  · rw [e]
    refine State.RegionsAndFill.of_steady (State.RegionsAndFill.beginFill hs hr hf hl rfl ?_) (State.fillIssue_steady _)
    simp

theorem State.RegionsAndFill.fillStop {s : State} (hs : s.RegionsAndFill) (b : ArgBlock) :
    (fillStop b s).state.RegionsAndFill := by
  obtain e | ⟨f, hf, hp, e⟩ := fillStop_cases b s
  · rwa [e]
  · rw [e]
    have := hs.2.failed f hf
    exact hs.fillAdvance hf rfl (by simpa [hp] using this)

theorem State.RegionsAndFill.spareSet {s : State} (hs : s.RegionsAndFill) (b : ArgBlock) :
    (spareSet b s).state.RegionsAndFill := by
  obtain e | ⟨base, count, hc, -, ho, e⟩ := spareSet_cases b s
  · rwa [e]
  · rw [e]
    refine ⟨⟨hs.1.each, hs.1.apart, ?_⟩, ⟨hs.2.region, hs.2.filling, hs.2.down, hs.2.failed⟩⟩
    rintro i r _ l hr ⟨rfl⟩ hl
    refine Bool.eq_false_iff.2 fun hs => ?_
    have inArea : base.toNat ≤ l.toNat ∧ l.toNat < base.toNat + count := by simpa using SpareArea.contains_iff.1 hs
    have := State.no_common_line ho (by simp) hr (l := l) (by omega)
    simp [hl] at this

/-- A command whose reply differs from the state in other fields than those of the laws keeps them. -/
theorem State.RegionsAndFill.of_tables {s t : State} (hs : s.RegionsAndFill) (hr : t.regions = s.regions)
    (ha : t.retirement.area = s.retirement.area) (hf : t.patrol.fill = s.patrol.fill)
    (hl : t.memory.link = s.memory.link) : t.RegionsAndFill := by
  have regions (i : Fin 32) : t.region i = s.region i := by rw [State.region, State.region, hr]
  exact ⟨⟨by simpa [regions] using hs.1.each, by simpa [regions] using hs.1.apart,
      by simpa [regions, ha] using hs.1.spares⟩,
    ⟨by simpa [regions, hf] using hs.2.region, by simpa [regions, hf] using hs.2.filling,
      by simpa [hf, hl] using hs.2.down, by simpa [hf] using hs.2.failed⟩⟩

theorem State.RegionsAndFill.patrolSet {s : State} (hs : s.RegionsAndFill) (b : ArgBlock) :
    (patrolSet b s).state.RegionsAndFill := by
  obtain e | ⟨_, _, -, e⟩ := patrolSet_cases b s
  · rwa [e]
  · rw [e]
    exact hs.of_tables rfl rfl rfl rfl

theorem State.RegionsAndFill.timeoutSet {s : State} (hs : s.RegionsAndFill) (b : ArgBlock) :
    (timeoutSet b s).state.RegionsAndFill := by
  obtain e | ⟨_, -, e⟩ := timeoutSet_cases b s
  · rwa [e]
  · rw [e]
    exact hs.of_tables rfl rfl rfl rfl

theorem State.RegionsAndFill.managerSet {s : State} (hs : s.RegionsAndFill) (b : ArgBlock) :
    (managerSet b s).state.RegionsAndFill := by
  obtain e | ⟨_, -, e⟩ := managerSet_cases b s
  · rwa [e]
  · rw [e]
    exact hs.of_tables rfl rfl rfl rfl

/-- Whichever command it is, it keeps both laws. -/
theorem State.RegionsAndFill.commandOf {s : State} (hs : s.RegionsAndFill) {k : Nat} {c : Command} {f : State → Reply}
    (h : commandOf k c = some f) : (f s).state.RegionsAndFill := by
  unfold Machine.commandOf at h
  split at h <;> cases h
  · exact hs.regionDefine _
  · exact hs.regionModify _
  · exact hs.regionState _
  · exact hs.regionRemove _
  · exact hs.of_steady (regionQuery_steady _ s)
  · exact hs.patrolSet _
  · exact hs.fillStart _
  · exact hs.fillStop _
  · exact hs.of_steady (historyQuery_steady _ s)
  · exact hs.of_steady (historyClear_steady _ s)
  · exact hs.spareSet _
  · exact hs.of_steady (spareMark_steady _ s)
  · exact hs
  · exact hs.of_steady (retireLine_steady _ _ _ s)
  · exact hs.of_steady (retireCancel_steady _ s)
  · exact hs.of_steady (retireLoad_steady _ s)
  · exact hs.of_steady (retireQuery_steady _ s)
  · exact hs.timeoutSet _
  · exact hs.of_steady (eventGrant_steady _ s)
  · exact hs.managerSet _
  · exact hs.of_tables rfl rfl rfl rfl
  · exact hs

theorem State.RegionsAndFill.serveCommand {s : State} (hs : s.RegionsAndFill) : s.serveCommand.RegionsAndFill := by
  unfold State.serveCommand
  split
  · rename_i c rest _
    have taken := hs.of_steady (State.takeCommand_steady rest s)
    refine State.RegionsAndFill.of_steady ?_ (Reply.send_steady c _)
    unfold State.process
    (repeat' split)
    · exact taken.commandOf ‹_›
    · exact taken
    · exact taken.of_steady (State.raise_steady _ _)
  · exact hs

/-- The tables of a bridge after cold reset are empty. -/
theorem reset_regionsAndFill (m : Fin 16) (q : List Instr) :
    State.RegionsAndFill { State.reset with management := { manager := m, frozen := false }, pending := q } := by
  have empty (i : Fin 32) :
      State.region { State.reset with management := { manager := m, frozen := false }, pending := q } i = none := by
    simp [State.region, State.reset]
  exact ⟨⟨by simp [empty], by simp [empty], by simp [empty]⟩,
    ⟨by simp [State.reset], by simp [empty], by simp [State.reset], by simp [State.reset]⟩⟩

theorem operationsKeep_regionsAndFill : OperationsKeep State.RegionsAndFill where
  closeEvent s hs := hs.of_steady s.closeEvent_steady
  pending s q hs := hs.of_steady (State.pending_steady q s)
  reset := reset_regionsAndFill
  ownershipPass s hs := hs.of_steady s.ownershipPass_steady
  repairService s hs := hs.of_steady s.repairService_steady
  fillIssue s hs := hs.of_steady s.fillIssue_steady
  copyStart s hs := hs.of_steady s.copyStart_steady
  acceptance s hs := hs.of_steady s.acceptance_steady
  serveCommand _ hs := hs.serveCommand
  issueGrant s hs := hs.of_steady s.issueGrant_steady
  eventDelivery s hs := hs.of_steady s.eventDelivery_steady
  requesterHello s hs := hs.of_steady s.requesterHello_steady
  requesterFall w s hs := hs.of_steady (State.requesterFall_steady w s)
  requestArrives q s hs := hs.of_steady (State.requestArrives_steady q s)
  commandArrives c s hs := hs.of_steady (State.commandArrives_steady c s)
  requesterBad k n s hs := hs.of_steady (State.requesterBad_steady k n s)
  transmitPacket s hs := hs.of_steady s.transmitPacket_steady
  memoryHello n k s hs := hs.of_steady (State.memoryHello_steady n k s)
  memoryLoss w _ hs := hs.memoryLoss w
  helloExpiry s hs := hs.of_steady s.helloExpiry_steady
  memoryBad k n s hs := hs.of_steady (State.memoryBad_steady k n s)
  sdata _ _ _ _ hs := hs.completion _ _ _ fun _ _ _ ht => ht.of_steady (State.readTaken_steady _ _ _ _)
  sdone _ _ _ hs := hs.completion _ _ _ fun _ _ _ ht => ht.writeTaken _ _
  timeoutExpiry i _ hs := hs.timeoutExpiry i
  slotExpiry _ hs := hs.slotExpiry
  tick s hs := hs.of_steady s.tick_steady

/-- Settles O57: each operation keeps the laws of the region table and of the fill, so every step does. -/
theorem regionsAndFillStayInOrder : Obligations.RegionsAndFillStayInOrder :=
  operationsKeep_regionsAndFill.keptByStep

end Sys2Proof.Machine
end

section
/-! SUPPORT. A frozen bridge keeps its configuration (O60): every operation outside the management unit keeps the
whole of it, and a command of a frozen bridge what R170 protects. -/

namespace Sys2Proof.Machine

/-! ### Operations that are not steady keep the configuration -/

theorem State.SameSetup.refl (s : State) : s.SameSetup s := (State.Steady.refl s).setup

theorem State.scanBurst_setup (i : Fin 32) (n : Nat) (s : State) : s.SameSetup (s.scanBurst i n) := by
  induction n generalizing s with
  | zero => exact .refl s
  | succ n ih =>
    unfold State.scanBurst
    split
    · rename_i r slot _ _
      have created : s.SameSetup (s.create slot (scanEntry i r.cursor)) :=
        State.Steady.setup (.of_fields (by simp))
      have moved (f : Region → Region) (hf : ∀ r, (f r).definition = r.definition) :=
        created.trans (State.modifyRegion_setup hf i _)
      have next := moved (fun r => { r with cursor := r.cursor + 1 }) fun _ => rfl
      dsimp only
      split
      · have wrapped := moved (fun r => { r with cursor := r.base, passes := r.passes + 1 }) fun _ => rfl
        split
        · exact wrapped.trans (State.raise_steady _ _).setup
        · exact wrapped
      · exact next.trans (ih _)
    · exact .refl s

theorem State.slotExpiry_setup (s : State) : s.SameSetup s.slotExpiry := by
  have next : s.SameSetup s.nextSlot := State.Steady.setup (.of_fields (by simp [State.nextSlot]))
  unfold State.slotExpiry State.serveSlot
  (repeat' split)
  · exact next
  · exact (next.trans (State.Steady.setup (.of_fields (by simp)))).trans (State.scanBurst_setup _ _ _)
  · exact next
  · exact .refl s

theorem State.fillAdvance_setup (f : Fill) (s : State) : s.SameSetup (s.fillAdvance f) := by
  have goesOn : s.SameSetup (s.setFill (some f)) := ⟨rfl, rfl, rfl, rfl, rfl, fun _ => rfl⟩
  have ended (p : RegionPhase) : s.SameSetup (s.endFilling f.region p) := State.endFilling_setup f.region p s
  have completed := (ended .online).trans
    (State.modifyRegion_setup (f := fun r => { r with cursor := r.base }) (fun _ => rfl) f.region _)
  unfold State.fillAdvance
  (repeat' split)
  · exact completed.trans (State.raise_steady _ _).setup
  · exact goesOn
  · exact (ended .offline).trans (State.raise_steady _ _).setup
  · exact goesOn
  · exact (ended .offline).trans (State.raise_steady _ _).setup
  · exact goesOn

theorem State.fillLost_setup (s : State) : s.SameSetup s.fillLost := by
  unfold State.fillLost
  split
  · exact .refl s
  · exact (State.endFilling_setup _ _ s).trans (State.raise_steady _ _).setup

theorem State.originFails_setup (e : Entry) (w : FillFailure) (s : State) : s.SameSetup (s.originFails e w) := by
  unfold State.originFails State.fillWriteFailed
  (repeat' split)
  · exact State.Steady.setup (.of_fields (by simp))
  · exact .refl s
  · exact .refl s
  · exact .refl s
  · exact State.fillAdvance_setup _ s
  · exact State.Steady.setup (.of_fields (by simp))

theorem State.writeTaken_setup (i : Fin 64) (e : Entry) (s : State) : s.SameSetup (s.writeTaken i e) := by
  unfold State.writeTaken State.fillAcknowledged
  (repeat' split)
  · exact State.Steady.setup (.of_fields (by simp [State.writeDone]))
  · exact State.Steady.setup (.of_fields (by simp))
  · exact State.Steady.setup (.of_fields (by simp))
  · exact (State.release_steady i s).setup
  · exact (State.release_steady i s).setup.trans (State.fillAdvance_setup _ _)
  · exact State.Steady.setup (.of_fields (by simp))

theorem State.completion_setup (op : MemoryOp) (tag status : Byte) {finish : Fin 64 → Entry → State → State}
    (hf : ∀ i e t, State.SameSetup t (finish i e t)) (s : State) : s.SameSetup (s.completion op tag status finish) := by
  have unmatched (w : Reason) : s.SameSetup (s.unmatched tag w) := (State.raise_steady _ s).setup
  have freed (i : Fin 64) : s.SameSetup (s.freeCredit i) := (State.freeCredit_steady i s).setup
  unfold State.completion
  (repeat' split)
  · exact .refl s
  · exact unmatched _
  · exact unmatched _
  · exact unmatched _
  · exact State.Steady.setup (.of_fields (by simp))
  · exact (freed _).trans (hf _ _ _)
  · have failed (i : Fin 64) (n : Notice) (e : Entry) (w : FillFailure) :=
      ((freed i).trans (State.raise_steady n _).setup).trans (State.originFails_setup e w _)
    exact (failed _ _ _ _).trans (State.release_steady _ _).setup

theorem State.timeoutExpiry_setup (i : Fin 64) (s : State) : s.SameSetup (s.timeoutExpiry i) := by
  unfold State.timeoutExpiry
  split
  · exact .refl s
  · exact (State.Steady.setup (.of_fields (by simp))).trans (State.originFails_setup _ _ _)

theorem State.memoryLoss_setup (w : Reason) (s : State) : s.SameSetup (s.memoryLoss w) := by
  unfold State.memoryLoss
  split
  · exact .refl s
  · have fallen : s.SameSetup { s with memory := s.memory.fall s.now } := ⟨rfl, rfl, rfl, rfl, rfl, fun _ => rfl⟩
    have filled (n : Notice) := (fallen.trans (State.raise_steady n _).setup).trans (State.fillLost_setup _)
    have copied (t : State) : t.Steady t.copyLost := .of_fields (by simp)
    have lost (t : State) : t.Steady t.loseAll := .of_fields (by simp)
    exact ((filled _).trans (copied _).setup).trans (lost _).setup

/-! ### What a freeze protects -/

/-- `t` has what a freeze protects in `s` (R170): the manager, MTIMEOUT, the scan's settings, the bounds of the spare
area, and the definition of every fixed region. -/
structure State.FixedKept (s t : State) : Prop where
  management : t.management = s.management
  mtimeout : t.memory.mtimeout = s.memory.mtimeout
  scanEnabled : t.patrol.scanEnabled = s.patrol.scanEnabled
  slotPeriod : t.patrol.slotPeriod = s.patrol.slotPeriod
  spares : spareBounds t.retirement.area = spareBounds s.retirement.area
  fixed : ∀ i r, s.region i = some r → r.fixed = true → ∃ q, t.region i = some q ∧ q.definition = r.definition

theorem State.SameSetup.fixedKept {s t : State} (h : s.SameSetup t) : s.FixedKept t where
  management := h.management
  mtimeout := h.mtimeout
  scanEnabled := h.scanEnabled
  slotPeriod := h.slotPeriod
  spares := h.spares
  fixed i _ hr _ := by
    obtain ⟨q, hq, e⟩ := region_of_map (h.definition i).symm hr
    exact ⟨q, hq, e.symm⟩

theorem State.Steady.fixedKept {s t : State} (h : s.Steady t) : s.FixedKept t := h.setup.fixedKept

theorem State.FixedKept.refl (s : State) : s.FixedKept s := (State.Steady.refl s).fixedKept

theorem State.FixedKept.trans {s t u : State} (h : s.FixedKept t) (k : t.FixedKept u) : s.FixedKept u where
  management := k.management.trans h.management
  mtimeout := k.mtimeout.trans h.mtimeout
  scanEnabled := k.scanEnabled.trans h.scanEnabled
  slotPeriod := k.slotPeriod.trans h.slotPeriod
  spares := k.spares.trans h.spares
  fixed i r hr hx := by
    obtain ⟨q, hq, e⟩ := h.fixed i r hr hx
    have hqx : q.fixed = true := (congrArg Region.fixed e).trans hx
    obtain ⟨p, hp, e'⟩ := k.fixed i q hq hqx
    exact ⟨p, hp, e'.trans e⟩

/-- A write of an entry that holds no fixed region keeps the fixed regions. -/
theorem State.setRegion_fixedKept {s : State} {i : Fin 32} (x : Option Region)
    (h : ∀ r, s.region i = some r → r.fixed = false) : s.FixedKept (s.setRegion i x) where
  management := rfl
  mtimeout := rfl
  scanEnabled := rfl
  slotPeriod := rfl
  spares := rfl
  fixed j r hr hx := by
    have hij : i ≠ j := by
      rintro rfl
      simp [h r hr] at hx
    exact ⟨r, by rw [State.region_setRegion, if_neg hij, hr], rfl⟩

/-! ### The commands of a frozen bridge -/

theorem regionDefine_fixedKept (b : ArgBlock) (s : State) : s.FixedKept (regionDefine b s).state := by
  obtain e | ⟨i, r, hi, -, -, -, -, e⟩ := regionDefine_cases b s <;> rw [e]
  · exact .refl s
  · exact State.setRegion_fixedKept _ (by simp [hi])

theorem regionModify_fixedKept (b : ArgBlock) {s : State} (hz : s.management.frozen = true) :
    s.FixedKept (regionModify b s).state := by
  obtain e | ⟨i, r, hr, -, hx, e⟩ := regionModify_cases b s <;> rw [e]
  · exact .refl s
  · have written (x : Option Region) : s.FixedKept (s.setRegion i x) :=
      State.setRegion_fixedKept x fun q hq => by
        rw [hr] at hq
        cases hq
        exact hx hz
    split
    · exact (written _).trans (State.boundsChanged_steady _ _ _ _).fixedKept
    · exact written _

theorem regionState_fixedKept (b : ArgBlock) (s : State) : s.FixedKept (regionState b s).state := by
  obtain e | ⟨i, r, p, hr, -, -, e⟩ := regionState_cases b s <;> rw [e]
  · exact .refl s
  · exact (State.setPhase_setup hr _).fixedKept

theorem regionRemove_fixedKept (b : ArgBlock) {s : State} (hz : s.management.frozen = true) :
    s.FixedKept (regionRemove b s).state := by
  obtain e | ⟨i, r, hr, -, hx, e⟩ := regionRemove_cases b s <;> rw [e]
  · exact .refl s
  · have forgotten : s.FixedKept ((s.forgetHistory fun e => e.region = i).dropRepairs r.contains) :=
      State.Steady.fixedKept (.of_fields (by simp))
    refine forgotten.trans (State.setRegion_fixedKept none fun q hq => ?_)
    obtain rfl : q = r := Option.some.inj (hq.symm.trans hr)
    exact hx hz

theorem fillStart_fixedKept (b : ArgBlock) (s : State) : s.FixedKept (fillStart b s).state := by
  obtain e | ⟨i, r, hr, -, -, e⟩ := fillStart_cases b s <;> rw [e]
  · exact .refl s
  · have begun (f : Fill) : s.SameSetup ((s.setRegion i (some { r with phase := .filling })).setFill (some f)) :=
      (State.setPhase_setup hr _).trans ⟨rfl, rfl, rfl, rfl, rfl, fun _ => rfl⟩
    exact ((begun _).trans (State.fillIssue_steady _).setup).fixedKept

theorem fillStop_fixedKept (b : ArgBlock) (s : State) : s.FixedKept (fillStop b s).state := by
  obtain e | ⟨f, -, -, e⟩ := fillStop_cases b s <;> rw [e]
  · exact .refl s
  · exact (State.fillAdvance_setup _ s).fixedKept

/-- A command that a freeze refuses outright leaves a frozen bridge as it is. -/
theorem State.FixedKept.of_refused {s t : State} (hz : s.management.frozen = true)
    (h : t = s ∨ s.management.frozen = false) : s.FixedKept t := by
  obtain rfl | hn := h
  · exact .refl _
  · simp [hz] at hn

theorem patrolSet_fixedKept (b : ArgBlock) {s : State} (hz : s.management.frozen = true) :
    s.FixedKept (patrolSet b s).state :=
  .of_refused hz ((patrolSet_cases b s).imp_right fun ⟨_, _, hn, _⟩ => hn)

theorem spareSet_fixedKept (b : ArgBlock) {s : State} (hz : s.management.frozen = true) :
    s.FixedKept (spareSet b s).state :=
  .of_refused hz ((spareSet_cases b s).imp_right fun ⟨_, _, _, hn, _⟩ => hn)

theorem timeoutSet_fixedKept (b : ArgBlock) {s : State} (hz : s.management.frozen = true) :
    s.FixedKept (timeoutSet b s).state :=
  .of_refused hz ((timeoutSet_cases b s).imp_right fun ⟨_, hn, _⟩ => hn)

theorem managerSet_fixedKept (b : ArgBlock) {s : State} (hz : s.management.frozen = true) :
    s.FixedKept (managerSet b s).state :=
  .of_refused hz ((managerSet_cases b s).imp_right fun ⟨_, hn, _⟩ => hn)

theorem freeze_fixedKept (b : ArgBlock) {s : State} (hz : s.management.frozen = true) :
    s.FixedKept (freeze b s).state := by
  have : (freeze b s).state = s := by simp [freeze, done, ← hz]
  exact this ▸ .refl s

/-- Whichever command it is, a frozen bridge keeps what its freeze protects. -/
theorem commandOf_fixedKept {s : State} (hz : s.management.frozen = true) {k : Nat} {c : Command} {f : State → Reply}
    (h : commandOf k c = some f) : s.FixedKept (f s).state := by
  unfold commandOf at h
  split at h <;> cases h
  · exact regionDefine_fixedKept _ s
  · exact regionModify_fixedKept _ hz
  · exact regionState_fixedKept _ s
  · exact regionRemove_fixedKept _ hz
  · exact (regionQuery_steady _ s).fixedKept
  · exact patrolSet_fixedKept _ hz
  · exact fillStart_fixedKept _ s
  · exact fillStop_fixedKept _ s
  · exact (historyQuery_steady _ s).fixedKept
  · exact (historyClear_steady _ s).fixedKept
  · exact spareSet_fixedKept _ hz
  · exact (spareMark_steady _ s).fixedKept
  · exact .refl s
  · exact (retireLine_steady _ _ _ s).fixedKept
  · exact (retireCancel_steady _ s).fixedKept
  · exact (retireLoad_steady _ s).fixedKept
  · exact (retireQuery_steady _ s).fixedKept
  · exact timeoutSet_fixedKept _ hz
  · exact (eventGrant_steady _ s).fixedKept
  · exact managerSet_fixedKept _ hz
  · exact freeze_fixedKept _ hz
  · exact .refl s

theorem State.serveCommand_fixedKept {s : State} (hz : s.management.frozen = true) : s.FixedKept s.serveCommand := by
  unfold State.serveCommand
  split
  · rename_i c rest _
    have processed : (s.takeCommand rest).FixedKept ((s.takeCommand rest).process c).state := by
      unfold State.process
      (repeat' split)
      · exact commandOf_fixedKept (s := s.takeCommand rest) hz ‹_›
      · exact .refl _
      · exact (State.raise_steady _ _).fixedKept
    exact ((State.takeCommand_steady rest s).fixedKept.trans processed).trans (Reply.send_steady c _).fixedKept
  · exact .refl s

/-! ### The steps of a frozen bridge -/

theorem Inner.run_fixedKept {s : State} (hz : s.management.frozen = true) (i : Inner) : s.FixedKept (i.run s) := by
  cases i
  · exact s.eventDelivery_steady.fixedKept
  · exact s.ownershipPass_steady.fixedKept
  · exact s.repairService_steady.fixedKept
  · exact s.fillIssue_steady.fixedKept
  · exact s.copyStart_steady.fixedKept
  · exact s.acceptance_steady.fixedKept
  · exact s.issueGrant_steady.fixedKept
  · exact State.serveCommand_fixedKept hz

theorem State.settleFor_fixedKept {s : State} (hz : s.management.frozen = true) (steps : List Inner) (n : Nat) :
    s.FixedKept (s.settleFor steps n) :=
  State.settleFor_keeps (P := fun t => s.FixedKept t)
    (fun i _ _ _ ht => ht.trans (i.run_fixedKept (by rw [ht.management, hz]))) n s (.refl s)

/-- A command other than a cold reset keeps what the freeze protects. -/
theorem exec_fixedKept {s t : State} (hz : s.management.frozen = true) {i : Instr} (hi : ∀ p, i ≠ .coldReset p)
    (h : exec i s = .next t) : s.FixedKept t := by
  have settled : s.FixedKept s.settle := (State.settleFor_fixedKept hz _ _).trans (State.closeEvent_steady _).fixedKept
  have arrived : s.FixedKept s.settleArrival :=
    (State.settleFor_fixedKept hz _ _).trans (State.closeEvent_steady _).fixedKept
  have before (j : Inner) : s.FixedKept (s.settleBefore j) := State.settleFor_fixedKept hz _ _
  have requestFinds : s.FixedKept s.requestFinds := by
    unfold State.requestFinds
    split
    · exact settled
    · exact arrived
  have commandFinds : s.FixedKept s.commandFinds := by
    unfold State.commandFinds
    split
    · exact settled
    · exact arrived
  have served (p : Nat → Bool) : s.FixedKept (s.serveRow p) := by
    unfold State.serveRow State.serveIf
    (repeat' split)
    · exact (before .command).trans (State.serveCommand_fixedKept (by rw [(before .command).management, hz]))
    · exact before .command
    · exact before .command
  cases i <;> injection h with h <;> subst h
  case coldReset p => exact absurd rfl (hi p)
  case requesterHello => exact arrived.trans (State.requesterHello_steady _).fixedKept
  case requesterReset => exact arrived.trans (State.requesterFall_steady _ _).fixedKept
  case requesterLossOfSignal => exact arrived.trans (State.requesterFall_steady _ _).fixedKept
  case lread => exact requestFinds.trans (State.requestArrives_steady _ _).fixedKept
  case lwrite => exact requestFinds.trans (State.requestArrives_steady _ _).fixedKept
  case lmerge => exact requestFinds.trans (State.requestArrives_steady _ _).fixedKept
  case mcmd => exact commandFinds.trans (State.commandArrives_steady _ _).fixedKept
  case requesterBadPacket => exact arrived.trans (State.requesterBad_steady _ _ _).fixedKept
  case acceptance => exact (before .acceptance).trans (State.acceptance_steady _).fixedKept
  case ownershipPass => exact s.ownershipPass_steady.fixedKept
  case issueGrant => exact (before .issueGrant).trans (State.issueGrant_steady _).fixedKept
  case transmitPacket => exact settled.trans (State.transmitPacket_steady _).fixedKept
  case memoryHello => exact settled.trans (State.memoryHello_steady _ _ _).fixedKept
  case memoryReset => exact settled.trans (State.memoryLoss_setup _ _).fixedKept
  case memoryLossOfSignal => exact settled.trans (State.memoryLoss_setup _ _).fixedKept
  case helloTimerExpiry => exact settled.trans (State.helloExpiry_steady _).fixedKept
  case memoryBadPacket => exact settled.trans (State.memoryBad_steady _ _ _).fixedKept
  case sdata =>
    exact settled.trans (State.completion_setup _ _ _ (fun _ _ _ => (State.readTaken_steady _ _ _ _).setup) _).fixedKept
  case sdone =>
    exact settled.trans (State.completion_setup _ _ _ (fun _ _ _ => State.writeTaken_setup _ _ _) _).fixedKept
  case completionTimeoutExpiry => exact settled.trans (State.timeoutExpiry_setup _ _).fixedKept
  case slotTimerExpiry => exact settled.trans (State.slotExpiry_setup _).fixedKept
  case repairService => exact s.repairService_steady.fixedKept
  case fillIssue => exact s.fillIssue_steady.fixedKept
  case copyStart => exact s.copyStart_steady.fixedKept
  case eventDelivery => exact s.eventDelivery_steady.fixedKept
  all_goals exact served _

theorem State.idle_fixedKept {s : State} (hz : s.management.frozen = true) : s.FixedKept s.idle := by
  have ended : s.FixedKept s.closeEvent := s.closeEvent_steady.fixedKept
  unfold State.idle
  (repeat' split)
  · exact Inner.run_fixedKept hz _
  · exact ended.trans (State.transmitPacket_steady _).fixedKept
  · exact ended.trans (State.timeoutExpiry_setup _ _).fixedKept
  · exact ended.trans (State.slotExpiry_setup _).fixedKept
  · exact ended.trans (State.helloExpiry_steady _).fixedKept
  · exact ended.trans (State.tick_steady _).fixedKept

/-- Every step but a cold reset keeps what the freeze protects. -/
theorem step_fixedKept {s t : State} (hz : s.management.frozen = true) (h : step s = .next t)
    (hp : ∀ p rest, s.pending ≠ .coldReset p :: rest) : s.FixedKept t := by
  unfold step at h
  split at h
  · rename_i c rest hc
    have taken : s.FixedKept { s with pending := rest } := (State.pending_steady rest s).fixedKept
    exact taken.trans (exec_fixedKept hz (fun p e => hp p rest (e ▸ hc)) h)
  · injection h with h
    exact h ▸ State.idle_fixedKept hz

/-- Settles O60: what each operation keeps of a frozen bridge, every step but a cold reset keeps. -/
theorem frozenBridgeKeepsItsConfiguration : Obligations.FrozenBridgeKeepsItsConfiguration := by
  intro s t hz h hp
  have kept := step_fixedKept hz h hp
  refine ⟨kept.management, kept.mtimeout, kept.scanEnabled, kept.slotPeriod, kept.spares, fun i r hr hx => ?_⟩
  obtain ⟨q, hq, e⟩ := kept.fixed i r hr hx
  simp only [Region.definition, Region.mk.injEq, true_and] at e
  obtain ⟨base, limit, rights, mode, patrol, burst, threshold, corrections, passes, fixed, -⟩ := e
  exact ⟨q, hq, base, limit, rights, mode, patrol, burst, threshold, corrections, passes, fixed.trans hx⟩

end Sys2Proof.Machine
end

section
/-! SUPPORT. The rows of the five region commands (O41 to O44): the row that serves a
command, what its block encodes, and REGION_DEFINE. -/

namespace Sys2Proof.Machine

/-! ### The row of a command at the head -/

/-- The row of the code at the head serves the command: it leaves the queue, and its reply is sent. -/
theorem State.AtHead.serveIf {s : State} {code : Nat} {c : Command} {rest : List Command} (h : s.AtHead code c rest)
    {f : State → Reply} (hf : commandOf code c = some f) :
    s.serveIf (· == code) = (f (s.takeCommand rest)).send c := by
  have manager : (s.takeCommand rest).fromManager c = true := h.manager
  simp [State.serveIf, State.serveCommand, State.process, h.head, h.code, manager, hf]

/-- A command that leaves its queue leaves what the checks of the region commands look at. -/
@[simp] theorem State.takeCommand_checks (rest : List Command) (s : State) :
    (∀ i, (s.takeCommand rest).region i = s.region i) ∧
      (∀ l, (s.takeCommand rest).belowCapacity l = s.belowCapacity l) ∧
      (∀ x b l, (s.takeCommand rest).overlapsRegion x b l = s.overlapsRegion x b l) ∧
      (∀ b l, (s.takeCommand rest).overlapsSpares b l = s.overlapsSpares b l) ∧
      ∀ i, (s.takeCommand rest).refersTo i = s.refersTo i :=
  ⟨fun _ => rfl, fun _ => rfl, fun _ _ _ => rfl, fun _ _ => rfl, fun _ => rfl⟩

/-- A row whose command is refused answers the refusal, and changes nothing else. -/
theorem Reply.refused_row {o : Host.Outcome State Fault Refusal} {c : Command} {rest : List Command} {s : State}
    {r : Reply} (row : o = .next (r.send c)) {why : RefusedReason} (h : r = refuse why (s.takeCommand rest)) :
    o = .next (s.answerRefused c rest why) := by
  rw [row, h]
  rfl

/-- A command carried out is answered DONE. -/
theorem Reply.send_done (c : Command) (r : Result) (s : State) : (done r s).send c = s.answer c .done r := rfl

/-- A line is beyond the capacity unless a known capacity is above it. -/
theorem State.belowCapacity_iff {s : State} {l : LineNo} :
    s.belowCapacity l = true ↔ ∃ n, s.memory.capacity = some n ∧ l.toNat < n := by
  cases h : s.memory.capacity <;> simp [State.belowCapacity, h]

/-! ### What a block encodes -/

theorem argNat_four_lt (b : ArgBlock) (i : Nat) : argNat b i 4 < 2 ^ 32 := by
  have h (k : Nat) := (argByte b k).isLt
  have := h i
  have := h (i + 1)
  have := h (i + 2)
  have := h (i + 3)
  simp [argNat, ofLe, List.range, List.range.loop]
  omega

theorem argLine_toNat (b : ArgBlock) (i : Nat) : (argLine b i).toNat = argNat b i 4 := by
  simpa [argLine] using Nat.mod_eq_of_lt (argNat_four_lt b i)

theorem argIndex_eq_some {b : ArgBlock} {i : Fin 32} : argIndex b = some i ↔ argNat b 4 1 = i.val := by
  unfold argIndex
  split
  · simp [Fin.ext_iff]
  · simp only [reduceCtorEq, false_iff]
    omega

theorem argFlag_eq_some {b : ArgBlock} {k : Nat} {x : Bool} : argFlag b k = some x ↔ argNat b k 1 = bit x := by
  unfold argFlag
  cases x <;> (repeat' split) <;> simp [bit] <;> omega

theorem argFlag_eq_none {b : ArgBlock} {k : Nat} : argFlag b k = none ↔ 1 < argNat b k 1 := by
  unfold argFlag
  (repeat' split) <;> simp <;> omega

theorem argMode_eq_some {b : ArgBlock} {m : Mode} : argMode b = some m ↔ argNat b 5 1 = m.code := by
  unfold argMode
  cases m <;> (repeat' split) <;> simp [Mode.code] <;> omega

theorem argMode_eq_none {b : ArgBlock} : argMode b = none ↔ 1 < argNat b 5 1 := by
  unfold argMode
  (repeat' split) <;> simp <;> omega

theorem argBurst_eq_none {b : ArgBlock} : argBurst b = none ↔ argNat b 7 1 = 0 ∨ 16 < argNat b 7 1 := by
  unfold argBurst
  split <;> simp <;> omega

theorem argThreshold_eq_none {b : ArgBlock} : argThreshold b = none ↔ 15 < argNat b 8 1 := by
  unfold argThreshold
  split <;> simp <;> omega

theorem argReports_eq_none {b : ArgBlock} : argReports b = none ↔ 3 < argNat b 9 1 := by
  unfold argReports
  split <;> simp <;> omega

/-- The two report flags are the two lowest bits of a byte below 4. -/
theorem argReports_eq_some {b : ArgBlock} {x y : Bool} (h : argReports b = some (x, y)) :
    argNat b 9 1 = reportFlags x y := by
  unfold argReports at h
  split at h
  · rename_i hlt
    have both : ∀ n < 4, n = reportFlags (n.testBit 0) (n.testBit 1) := by decide
    cases h
    exact both _ hlt
  · cases h

/-- The two bits of a requester's rights, unless they are 3, are the code of the rights they give. -/
theorem rightsOf_code {n : Nat} (h : n < 3) : (rightsOf n).code = n := by
  have : ∀ n < 3, (rightsOf n).code = n := by decide
  exact this n h

theorem argRights_eq_none {b : ArgBlock} : argRights b = none ↔ ∃ k : Fin 16, argNat b 20 4 / 4 ^ k.val % 4 = 3 := by
  unfold argRights
  split
  · rename_i h
    simp only [List.all_eq_true, List.mem_range, bne_iff_ne] at h
    simp only [reduceCtorEq, false_iff, not_exists]
    exact fun k => h k.val k.isLt
  · rename_i h
    simp only [List.all_eq_true, List.mem_range, bne_iff_ne, not_forall, not_not] at h
    obtain ⟨k, hk, e⟩ := h
    simpa using ⟨⟨k, hk⟩, e⟩

theorem argRights_eq_some {b : ArgBlock} {v : Vector Rights 16} (h : argRights b = some v) (k : Fin 16) :
    argNat b 20 4 / 4 ^ k.val % 4 = v[k.val].code := by
  have bits : argRightsBits b k.val ≠ 3 := fun e => by
    have : argRights b = none := argRights_eq_none.2 ⟨k, e⟩
    simp [h] at this
  unfold argRights at h
  split at h
  · cases h
    have : argRightsBits b k.val < 4 := Nat.mod_lt _ (by decide)
    simpa [argRightsBits] using (rightsOf_code (show argRightsBits b k.val < 3 by omega)).symm
  · cases h

/-- The block of a REGION_DEFINE is bad exactly if one of its fields is. -/
theorem argRegion_eq_none {b : ArgBlock} : argRegion b = none ↔ argMode b = none ∨ argFlag b 6 = none ∨
    argBurst b = none ∨ argThreshold b = none ∨ argReports b = none ∨ argFlag b 10 = none ∨ argRights b = none := by
  unfold argRegion
  split
  · simp [*]
  · rename_i h
    simp only [true_iff]
    by_contra hn
    simp only [not_or, ← ne_eq, Option.ne_none_iff_exists'] at hn
    obtain ⟨⟨_, h1⟩, ⟨_, h2⟩, ⟨_, h3⟩, ⟨_, h4⟩, ⟨_, h5⟩, ⟨_, h6⟩, ⟨_, h7⟩⟩ := hn
    exact h _ _ _ _ _ _ _ h1 h2 h3 h4 h5 h6 h7

/-! ### REGION_DEFINE -/

/-- The fields of a described region stand in the block as encoded. -/
theorem DescribedBy.encoded {b : ArgBlock} {r : Region} (h : DescribedBy b r) :
    argNat b 5 1 = r.mode.code ∧ argNat b 6 1 = bit r.patrol ∧ argNat b 7 1 = r.burst ∧ argNat b 8 1 = r.threshold
      ∧ argNat b 9 1 = reportFlags r.reportCorrections r.reportPasses ∧ argNat b 10 1 = bit r.fixed
      ∧ argNat b 12 4 = r.base.toNat ∧ argNat b 16 4 = r.limit.toNat
      ∧ (∀ k : Fin 16, argNat b 20 4 / 4 ^ k.val % 4 = r.rights[k.val].code)
      ∧ 1 ≤ r.burst ∧ r.burst ≤ 16 ∧ r.threshold ≤ 15
      ∧ r.phase = .offline ∧ r.stats = { corrected := 0, uncorrectable := 0, void := 0, refused := 0 }
      ∧ r.cursor = r.base ∧ r.passes = 0 := by
  obtain ⟨burst, burst_ge, burst_le⟩ := argBurst_eq_some.1 h.burst
  obtain ⟨threshold, threshold_le⟩ := argThreshold_eq_some.1 h.threshold
  exact ⟨argMode_eq_some.1 h.mode, argFlag_eq_some.1 h.patrol, burst, threshold, argReports_eq_some h.reports,
    argFlag_eq_some.1 h.fixed, h.base ▸ (argLine_toNat b 12).symm, h.limit ▸ (argLine_toNat b 16).symm,
    argRights_eq_some h.rights, burst_ge, burst_le, threshold_le, h.phase, h.stats, h.cursor, h.passes⟩

/-- A range overlaps a region or the spare area, as REGION_DEFINE and REGION_MODIFY check it (R10, R12). -/
theorem State.overlaps_iff {s : State} {except : Option (Fin 32)} {base limit : Nat} :
    s.overlapsRegion except base limit = true ∨ s.overlapsSpares base limit = true ↔
      (∃ j x, some j ≠ except ∧ s.region j = some x ∧ x.base.toNat ≤ limit ∧ base ≤ x.limit.toNat) ∨
      ∃ a, s.retirement.area = some a ∧ a.base.toNat ≤ limit ∧ base < a.base.toNat + a.spares.length :=
  or_congr State.overlapsRegion_iff State.overlapsSpares_iff

/-- The last checks of REGION_DEFINE, for a good block and an EMPTY entry while the capacity is known (R10). -/
theorem regionDefine_of_described {b : ArgBlock} {s : State} {i : Fin 32} {r : Region} (hi : argIndex b = some i)
    (hx : s.region i = none) (hc : s.memory.capacity ≠ none) (hr : argRegion b = some r) :
    regionDefine b s =
      if r.limit.toNat < r.base.toNat ∨ ¬s.belowCapacity r.limit = true then refuse .badArgument s
      else if s.overlapsRegion none r.base.toNat r.limit.toNat = true
          ∨ s.overlapsSpares r.base.toNat r.limit.toNat = true then refuse .overlap s
      else if s.management.frozen = true ∧ r.fixed = true then refuse .frozen s
      else done .empty (s.setRegion i (some r)) := by
  simp [regionDefine, hi, hx, hc, hr]

/-- Settles O41: the fields as encoded, and the checks of REGION_DEFINE one after another. -/
theorem regionDefineFillsAnEmptyEntry : Obligations.RegionDefineFillsAnEmptyEntry := by
  refine ⟨fun b => ⟨fun r hr => (argRegion_describedBy hr).encoded, ?_, fun i => argIndex_eq_some⟩, ?_⟩
  · rw [argRegion_eq_none, argMode_eq_none, argFlag_eq_none, argBurst_eq_none, argThreshold_eq_none, argReports_eq_none,
      argFlag_eq_none, argRights_eq_none, or_assoc]
  intro before c rest s head refused
  have row : exec .regionDefine before = .next ((regionDefine c.block (s.takeCommand rest)).send c) :=
    congrArg _ (head.serveIf rfl)
  have refusedBy {why : RefusedReason}
      (h : regionDefine c.block (s.takeCommand rest) = refuse why (s.takeCommand rest)) : refused why :=
    Reply.refused_row row h
  refine ⟨fun hi => refusedBy (by simp [regionDefine, hi]), fun i hi => ⟨fun hx => ?_, fun hx =>
    ⟨fun hc => ?_, fun n hc => ⟨fun hr => ?_, fun r hr => ?_⟩⟩⟩⟩
  · exact refusedBy (by simp [regionDefine, hi, Option.isSome_iff_ne_none, hx])
  · exact refusedBy (by simp [regionDefine, hi, hx, hc])
  · exact refusedBy (by simp [regionDefine, hi, hx, hc, hr])
  intro overlap
  have below : s.belowCapacity r.limit = true ↔ r.limit.toNat < n := by simp [State.belowCapacity_iff, hc]
  have overlaps : s.overlapsRegion none r.base.toNat r.limit.toNat = true
      ∨ s.overlapsSpares r.base.toNat r.limit.toNat = true ↔ overlap := by
    simpa using State.overlaps_iff (except := none)
  have checks := regionDefine_of_described (s := s.takeCommand rest) hi hx (by simp [hc]) hr
  refine ⟨fun hb => refusedBy (checks.trans (if_pos ?_)), fun hb hl => ?_⟩
  · simpa [below] using hb
  have passed := checks.trans (if_neg (show ¬_ by simp [below, hb, hl]))
  refine ⟨fun ho => refusedBy (passed.trans (if_pos (overlaps.2 ho))), fun ho hz hf => refusedBy ?_, fun ho hz => ?_⟩
  · exact passed.trans ((if_neg (mt overlaps.1 ho)).trans (if_pos ⟨hz, hf⟩))
  · have notClosed : ¬(s.management.frozen = true ∧ r.fixed = true) := by
      rintro ⟨h, h'⟩
      simp [h, h'] at hz
    rw [row, passed.trans ((if_neg (mt overlaps.1 ho)).trans (if_neg notClosed))]
    rfl

end Sys2Proof.Machine
end

section
/-! SUPPORT. The rows of REGION_MODIFY, REGION_STATE, REGION_QUERY and REGION_REMOVE (O42, O43, O44). -/

namespace Sys2Proof.Machine

/-! ### REGION_MODIFY -/

/-- The named fields hold values of R1: no named field reads as none. -/
theorem argNamedGood_iff {b : ArgBlock} : argNamedGood b = true ↔
    (argSelects b 1 = true → argRights b ≠ none) ∧ (argSelects b 2 = true → argMode b ≠ none) ∧
      (argSelects b 3 = true → argFlag b 6 ≠ none) ∧ (argSelects b 4 = true → argBurst b ≠ none) ∧
      (argSelects b 5 = true → argThreshold b ≠ none) ∧
      (argSelects b 6 = true ∨ argSelects b 7 = true → argReports b ≠ none) ∧
      (argSelects b 8 = true → argFlag b 10 ≠ none) := by
  have imp (x y : Bool) : (!x || y) = true ↔ (x = true → y = true) := by cases x <;> simp
  simp only [argNamedGood, Bool.and_eq_true, imp, Bool.or_eq_true, Option.isSome_iff_ne_none]
  tauto

/-- A field that is named holds the block's value, which is a good one; a field that is not keeps its own. -/
theorem named_field {α : Type} {named : Bool} {x : Option α} {old new : α}
    (h : new = if named then x.getD old else old) (good : named = true → x ≠ none) :
    (named = true → x = some new) ∧ (¬named = true → new = old) := by
  constructor
  · intro hn
    obtain ⟨v, hv⟩ := Option.ne_none_iff_exists'.1 (good hn)
    simp [h, hn, hv]
  · intro hn
    simpa [hn] using h

/-- The checks of REGION_MODIFY on a region, in order (R12, R15), and what it writes (R13, R14). -/
theorem regionModify_of_region {b : ArgBlock} {s : State} {i : Fin 32} {r : Region} (hi : argIndex b = some i)
    (hr : s.region i = some r) :
    regionModify b s =
      if (argSelects b 0 = true ∨ argSelects b 2 = true) ∧ r.phase ≠ .offline then refuse .state s
      else if ¬argNamedGood b = true ∨ (argSelects b 0 = true ∧
          ((modifiedRegion b r).limit.toNat < (modifiedRegion b r).base.toNat
            ∨ ¬s.belowCapacity (modifiedRegion b r).limit = true)) then refuse .badArgument s
      else if argSelects b 0 = true ∧
          (s.overlapsRegion (some i) (modifiedRegion b r).base.toNat (modifiedRegion b r).limit.toNat = true
            ∨ s.overlapsSpares (modifiedRegion b r).base.toNat (modifiedRegion b r).limit.toNat = true) then
        refuse .overlap s
      else if s.management.frozen = true
          ∧ (r.fixed = true ∨ (argSelects b 8 = true ∧ (modifiedRegion b r).fixed = true)) then refuse .frozen s
      else done .empty
        (if argSelects b 0 then (s.setRegion i (some (modifiedRegion b r))).boundsChanged i r (modifiedRegion b r)
        else s.setRegion i (some (modifiedRegion b r))) := by
  simp only [regionModify, hi, hr]

/-- A history slot after some entries are forgotten. -/
theorem State.slot_forgetHistory (p : HistoryEntry → Bool) (s : State) (j : Fin 128) :
    (s.forgetHistory p).slot j = (s.slot j).filter fun e => !p e := by
  simp [State.slot]

/-- R14: what a change of bounds does, if the bounds are named. -/
theorem State.boundsChanged_if (named : Bool) (i : Fin 32) (old new : Region) (s : State) :
    let u := if named then s.boundsChanged i old new else s
    (∀ j, u.slot j = (s.slot j).filter fun e => !(named && decide (e.region = i) && !new.contains e.line))
      ∧ u.patrol =
          { s.patrol with repairQueue := s.patrol.repairQueue.filter fun l =>
              !(named && old.contains l && !new.contains l) }
      ∧ u.port = s.port ∧ u.regions = s.regions ∧ u.tracker = s.tracker ∧ u.memory = s.memory
      ∧ u.retirement = s.retirement ∧ u.events = s.events ∧ u.management = s.management ∧ u.pending = s.pending := by
  cases named
  · have all (x : Option HistoryEntry) : x.filter (fun _ => true) = x := by cases x <;> rfl
    simp [all]
  · have slots (j : Fin 128) : (s.boundsChanged i old new).slot j
        = (s.slot j).filter fun e => !(decide (e.region = i) && !new.contains e.line) := State.slot_forgetHistory _ s j
    simp only [Bool.true_and]
    exact ⟨slots, rfl, by simp [State.boundsChanged]⟩

/-- Settles O42: the checks of REGION_MODIFY one after another, and each field by whether it is named. -/
theorem regionModifyWritesTheNamedFields : Obligations.RegionModifyWritesTheNamedFields := by
  intro before c rest s head refused names
  have row : exec .regionModify before = .next ((regionModify c.block (s.takeCommand rest)).send c) :=
    congrArg _ (head.serveIf rfl)
  have refusedBy {why : RefusedReason}
      (h : regionModify c.block (s.takeCommand rest) = refuse why (s.takeCommand rest)) : refused why :=
    Reply.refused_row row h
  refine ⟨fun hi => refusedBy (by simp [regionModify, hi]), fun i hi => ⟨fun hr => ?_, fun r hr => ?_⟩⟩
  · exact refusedBy (by simp [regionModify, hi, hr])
  intro new bad badBounds overlap closed
  have checks := regionModify_of_region (s := s.takeCommand rest) hi hr
  refine ⟨fun hn hp => refusedBy (checks.trans (if_pos ⟨hn, hp⟩)), fun hp => ?_⟩
  have checks := checks.trans (if_neg hp)
  have badIff : ¬argNamedGood c.block = true ↔ bad := by
    rw [argNamedGood_iff]
    simp only [bad, names, not_and_or, Classical.not_imp, ne_eq, not_not]
  have boundsIff : (argSelects c.block 0 = true ∧ (new.limit.toNat < new.base.toNat
      ∨ ¬s.belowCapacity new.limit = true)) ↔ badBounds := by
    simp [badBounds, names, State.belowCapacity_iff]
  refine ⟨fun hb => refusedBy (checks.trans (if_pos (hb.imp badIff.2 boundsIff.2))), fun hb hbb => ?_⟩
  have checks := checks.trans (if_neg (not_or_intro (mt badIff.1 hb) (mt boundsIff.1 hbb)))
  have overlapIff : (argSelects c.block 0 = true ∧
      (s.overlapsRegion (some i) new.base.toNat new.limit.toNat = true
        ∨ s.overlapsSpares new.base.toNat new.limit.toNat = true)) ↔ overlap := by
    simp [overlap, names, State.overlaps_iff]
  obtain ⟨rights, mode, patrol, burst, threshold, reports, fixed⟩ :=
    argNamedGood_iff.1 (not_not.1 (mt badIff.1 hb))
  have newEq : new = _ := modifiedRegion_eq c.block r
  obtain ⟨fixedNamed, fixedKept⟩ := named_field (new := new.fixed) (by rw [newEq]; rfl) fixed
  have closedIff : (s.management.frozen = true ∧ (r.fixed = true ∨ (argSelects c.block 8 = true ∧ new.fixed = true)))
      ↔ closed := by
    refine and_congr_right fun _ => or_congr_right (and_congr_right fun h8 => ?_)
    rw [fixedNamed h8]
    simp
  refine ⟨fun ho => refusedBy (checks.trans (if_pos (overlapIff.2 ho))), fun ho hc => refusedBy ?_, fun ho hc => ?_⟩
  · exact checks.trans ((if_neg (mt overlapIff.1 ho)).trans (if_pos (closedIff.2 hc)))
  rw [row, checks.trans ((if_neg (mt overlapIff.1 ho)).trans (if_neg (mt closedIff.1 hc)))]
  refine ⟨if argSelects c.block 0 then ((s.takeCommand rest).setRegion i (some new)).boundsChanged i r new
    else (s.takeCommand rest).setRegion i (some new), rfl, ?_⟩
  obtain ⟨slots, patrolUnit, port, regions, tracker, memory, retirement, events, management, pending⟩ :=
    State.boundsChanged_if (argSelects c.block 0) i r new ((s.takeCommand rest).setRegion i (some new))
  have region (j : Fin 32) : State.region _ j = if i = j then some new else s.region j :=
    (congrArg (·[j.val]) regions).trans (State.region_setRegion ..)
  obtain ⟨rights₁, rights₀⟩ := named_field (new := new.rights) (by rw [newEq]; rfl) rights
  obtain ⟨mode₁, mode₀⟩ := named_field (new := new.mode) (by rw [newEq]; rfl) mode
  obtain ⟨patrol₁, patrol₀⟩ := named_field (new := new.patrol) (by rw [newEq]; rfl) patrol
  obtain ⟨burst₁, burst₀⟩ := named_field (new := new.burst) (by rw [newEq]; rfl) burst
  obtain ⟨threshold₁, threshold₀⟩ := named_field (new := new.threshold) (by rw [newEq]; rfl) threshold
  obtain ⟨corrections₁, corrections₀⟩ := named_field (new := new.reportCorrections) (by rw [newEq]; rfl)
    fun h6 => by simpa using reports (.inl h6)
  obtain ⟨passes₁, passes₀⟩ := named_field (new := new.reportPasses) (by rw [newEq]; rfl)
    fun h7 => by simpa using reports (.inr h7)
  obtain ⟨phase, stats, count⟩ := modifiedRegion_kept c.block r
  exact ⟨(region i).trans (if_pos rfl), fun j hj => (region j).trans (if_neg (Ne.symm hj)), slots, patrolUnit, port,
    tracker, memory, retirement, events, management, pending, by rw [newEq]; rfl, by rw [newEq]; rfl,
    rights₁, rights₀, mode₁, mode₀, patrol₁, patrol₀, burst₁, burst₀, threshold₁, threshold₀, corrections₁,
    corrections₀, passes₁, passes₀, fixedNamed, fixedKept, phase, stats, count, by rw [newEq]⟩

/-! ### REGION_STATE and REGION_QUERY -/

theorem argTarget_eq_some {b : ArgBlock} {target : RegionPhase} : argTarget b = some target ↔
    (argNat b 5 1 = 1 ∧ target = .online) ∨ (argNat b 5 1 = 2 ∧ target = .offline) := by
  unfold argTarget
  cases target <;> (repeat' split) <;> simp [*]

theorem argTarget_eq_none {b : ArgBlock} : argTarget b = none ↔ argNat b 5 1 ≠ 1 ∧ argNat b 5 1 ≠ 2 := by
  unfold argTarget
  (repeat' split) <;> simp [*]

/-- The checks of REGION_STATE on a region, in order (R16), and the state it sets (R17). -/
theorem regionState_of_region {b : ArgBlock} {s : State} {i : Fin 32} {target : RegionPhase} {r : Region}
    (hi : argIndex b = some i) (ht : argTarget b = some target) (hr : s.region i = some r) :
    regionState b s =
      if r.phase = .filling then refuse .state s
      else if target = .online ∧ ¬s.belowCapacity r.limit = true then refuse .badArgument s
      else if s.management.frozen = true ∧ r.fixed = true then refuse .frozen s
      else done .empty (s.setRegion i (some { r with phase := target })) := by
  simp only [regionState, hi, ht, hr]

/-- Settles O43: the checks of REGION_STATE one after another, and REGION_QUERY by its two bytes. -/
theorem regionStateAndQuery : Obligations.RegionStateAndQuery := by
  constructor
  · intro before c rest s head refused
    have row : exec .regionState before = .next ((regionState c.block (s.takeCommand rest)).send c) :=
      congrArg _ (head.serveIf rfl)
    have refusedBy {why : RefusedReason}
        (h : regionState c.block (s.takeCommand rest) = refuse why (s.takeCommand rest)) : refused why :=
      Reply.refused_row row h
    refine ⟨fun h => refusedBy ?_, fun i target hi ht => ⟨fun hr => refusedBy ?_, fun r hr => ?_⟩⟩
    · obtain hi | ht := h
      · simp [regionState, hi]
      · simp [regionState, argTarget_eq_none.2 ht]
    · simp [regionState, hi, argTarget_eq_some.2 ht, hr]
    intro beyond closed
    have beyondIff : (target = .online ∧ ¬s.belowCapacity r.limit = true) ↔ beyond := by
      simp [beyond, State.belowCapacity_iff]
    have checks := regionState_of_region (s := s.takeCommand rest) hi (argTarget_eq_some.2 ht) hr
    refine ⟨fun hp => refusedBy (checks.trans (if_pos hp)), fun hp hb => refusedBy ?_, fun hp hb hc => refusedBy ?_,
      fun hp hb hc => ?_⟩
    · exact checks.trans ((if_neg hp).trans (if_pos (beyondIff.2 hb)))
    · exact checks.trans ((if_neg hp).trans ((if_neg (mt beyondIff.1 hb)).trans (if_pos hc)))
    · rw [row, checks.trans ((if_neg hp).trans ((if_neg (mt beyondIff.1 hb)).trans (if_neg hc)))]
      rfl
  · intro before c rest s head
    have row : exec .regionQuery before = .next ((regionQuery c.block (s.takeCommand rest)).send c) :=
      congrArg _ (head.serveIf rfl)
    have queried {i : Fin 32} {clear : Bool} (hi : argIndex c.block = some i) (hf : argNat c.block 5 1 = bit clear) :
        regionQuery c.block (s.takeCommand rest) = done (.region (s.region i))
          (if clear then (s.takeCommand rest).modifyRegion i Region.clearStats else s.takeCommand rest) := by
      simp [regionQuery, hi, argFlag_eq_some.2 hf]
    refine ⟨fun h => ?_, fun i hi => ⟨fun h => ?_, fun r hf hr => ?_⟩⟩
    · have : regionQuery c.block (s.takeCommand rest) = refuse .badArgument (s.takeCommand rest) := by
        obtain hi | hf := h
        · simp [regionQuery, hi]
        · simp [regionQuery, argFlag_eq_none.2 hf]
      rw [row, this]
      rfl
    · obtain hf | ⟨hf, hr⟩ := h
      · rw [row, queried (clear := false) hi hf]
        rfl
      · rw [row, queried (clear := true) hi hf]
        simp [State.modifyRegion, hr, Reply.send_done]
    · rw [row, queried (clear := true) hi hf]
      simp [State.modifyRegion, hr, Reply.send_done, Region.clearStats]

/-! ### REGION_REMOVE -/

theorem State.refersTo_iff {s : State} {i : Fin 32} :
    s.refersTo i = true ↔ ∃ j e, s.entry j = some e ∧ e.region = some i := by
  simp [State.refersTo, Option.any_eq_true]

/-- The checks of REGION_REMOVE on a region, in order (R18). -/
theorem regionRemove_of_region {b : ArgBlock} {s : State} {i : Fin 32} {r : Region} (hi : argIndex b = some i)
    (hr : s.region i = some r) :
    regionRemove b s =
      if r.phase ≠ .offline then refuse .state s
      else if s.refersTo i = true then refuse .busy s
      else if s.management.frozen = true ∧ r.fixed = true then refuse .frozen s
      else done .empty (s.regionRemoved i r) := by
  simp only [regionRemove, hi, hr]

/-- R19: what the removal of a region leaves. -/
theorem State.regionRemoved_effect (i : Fin 32) (r : Region) (s : State) :
    (∀ j, (s.regionRemoved i r).region j = if i = j then none else s.region j)
      ∧ (∀ j, (s.regionRemoved i r).slot j = (s.slot j).filter fun e => decide (e.region ≠ i))
      ∧ (s.regionRemoved i r).patrol
        = { s.patrol with repairQueue := s.patrol.repairQueue.filter fun l => !r.contains l } := by
  refine ⟨fun j => State.region_setRegion .., fun j => ?_, rfl⟩
  have slots : (s.regionRemoved i r).slot j = (s.slot j).filter fun e => !decide (e.region = i) :=
    State.slot_forgetHistory _ s j
  simpa using slots

/-- Settles O44: the checks of REGION_REMOVE one after another, and what it leaves. -/
theorem regionRemoveEmptiesTheEntry : Obligations.RegionRemoveEmptiesTheEntry := by
  intro before c rest s head refused
  have row : exec .regionRemove before = .next ((regionRemove c.block (s.takeCommand rest)).send c) :=
    congrArg _ (head.serveIf rfl)
  have refusedBy {why : RefusedReason}
      (h : regionRemove c.block (s.takeCommand rest) = refuse why (s.takeCommand rest)) : refused why :=
    Reply.refused_row row h
  refine ⟨fun hi => refusedBy (by simp [regionRemove, hi]), fun i hi => ⟨fun hr => ?_, fun r hr => ?_⟩⟩
  · exact refusedBy (by simp [regionRemove, hi, hr])
  intro held closed
  have heldIff : s.refersTo i = true ↔ held := State.refersTo_iff
  have checks := regionRemove_of_region (s := s.takeCommand rest) hi hr
  refine ⟨fun hp => refusedBy (checks.trans (if_pos hp)), fun hp hh => refusedBy ?_, fun hp hh hc => refusedBy ?_,
    fun hp hh hc => ?_⟩
  · exact checks.trans ((if_neg (not_not.2 hp)).trans (if_pos (heldIff.2 hh)))
  · exact checks.trans ((if_neg (not_not.2 hp)).trans ((if_neg (mt heldIff.1 hh)).trans (if_pos hc)))
  · rw [row, checks.trans ((if_neg (not_not.2 hp)).trans ((if_neg (mt heldIff.1 hh)).trans (if_neg hc)))]
    obtain ⟨region, slots, patrol⟩ := State.regionRemoved_effect i r (s.takeCommand rest)
    exact ⟨_, rfl, (region i).trans (if_pos rfl), fun j hj => (region j).trans (if_neg (Ne.symm hj)), slots, patrol,
      rfl, rfl, rfl, rfl, rfl, rfl, rfl⟩

end Sys2Proof.Machine
end

section
/-! SUPPORT. The region decision, and the requests that acceptance refuses (O11, O13). -/

namespace Sys2Proof.Machine

/-! ### The region decision -/

/-- A line in no region is found nowhere. -/
theorem State.lookup_eq_none {s : State} {l : LineNo} (h : ∀ i r, s.region i = some r → r.contains l = false) :
    s.lookup l = none := by
  unfold State.lookup
  refine List.findSome?_eq_none_iff.2 fun i _ => ?_
  cases hr : s.region i with
  | none => rfl
  | some r => simp [h i r hr]

/-- R3: a line is found in the one region that contains it, wherever it stands in the table. -/
theorem State.lookup_eq_some {s : State} (hs : s.RegionsSound) {l : LineNo} {i : Fin 32} {r : Region}
    (hr : s.region i = some r) (hl : r.contains l = true) : s.lookup l = some (i, r) := by
  cases h : s.lookup l with
  | none =>
    have := List.findSome?_eq_none_iff.1 h i (List.mem_finRange i)
    simp [hr, hl] at this
  | some found =>
    obtain ⟨j, -, hj⟩ := List.exists_of_findSome?_eq_some h
    cases hq : s.region j with
    | none => simp [hq] at hj
    | some q =>
      simp only [hq] at hj
      split at hj
      · cases hj
        obtain rfl := hs.apart j i q r l hq hr ‹_› hl
        rw [Option.some.inj (hq.symm.trans hr)]
      · cases hj

/-- R6: what the rights of a requester allow: READ_WRITE everything, READ a read. -/
theorem Rights.allows_iff {x : Rights} {k : Kind} :
    x.allows k = true ↔ x = .readWrite ∨ (x = .read ∧ k = .read) := by
  cases x <;> cases k <;> simp [Rights.allows]

theorem State.aboveWatermark_iff {s : State} {i : Fin 32} {l : LineNo} : s.aboveWatermark i l = true ↔
    ∃ f w, s.patrol.fill = some f ∧ f.region = i ∧ f.watermark = some w ∧ w.toNat ≤ l.toNat := by
  simp [State.aboveWatermark, Option.any_eq_true]

/-- R6: the checks of the region decision in the region that was found. -/
theorem State.decideRegion_of_lookup {s : State} {l : LineNo} {i : Fin 32} {r : Region} (h : s.lookup l = some (i, r))
    (requester : Byte) (kind : Kind) :
    s.decideRegion requester kind l =
      if r.phase = .offline then .offline
      else if r.phase = .filling ∧ s.aboveWatermark i l = true then .notReady
      else if (r.rightsFor requester).allows kind = true then .admitted i r.mode
      else .denied i := by
  simp only [State.decideRegion, h]

/-- Settles O11: the line is found in its one region, whose checks come one after another. -/
theorem regionDecisionTakesTheFirstCheckThatApplies : Obligations.RegionDecisionTakesTheFirstCheckThatApplies := by
  intro s requester kind l hs
  refine ⟨fun h => by simp [State.decideRegion, State.lookup_eq_none h], fun i r hr hl => ?_⟩
  have checks := State.decideRegion_of_lookup (State.lookup_eq_some hs hr hl) requester kind
  refine ⟨fun hp => checks.trans (if_pos hp), fun hp hw => ?_, fun hp hq => ?_⟩
  · exact checks.trans ((if_neg (by simp [hp])).trans (if_pos ⟨hp, State.aboveWatermark_iff.2 hw⟩))
  have ready : ¬(r.phase = .filling ∧ s.aboveWatermark i l = true) := by
    rintro ⟨hf, hw⟩
    obtain ho | ⟨-, hn⟩ := hp
    · simp [hf] at ho
    · exact hn (State.aboveWatermark_iff.1 hw)
  have notOffline : r.phase ≠ .offline := by
    obtain ho | ⟨hf, -⟩ := hp
    · simp [ho]
    · simp [hf]
  have allowed : (r.rightsFor requester).allows kind = true ↔
      (r.rights[requester.toNat] = .readWrite ∨ (r.rights[requester.toNat] = .read ∧ kind = .read)) := by
    rw [Rights.allows_iff, Region.rightsFor, dif_pos hq]
  have checks := checks.trans ((if_neg notOffline).trans (if_neg ready))
  exact ⟨fun h => checks.trans (if_pos (allowed.2 h)), fun h => checks.trans (if_neg (mt allowed.1 h))⟩

/-! ### A refused request -/

theorem Request.malformed_iff {q : Request} : q.malformed = true ↔ q.Bad := by
  cases hb : q.body <;> simp [Request.malformed, Request.Bad, hb, or_assoc]

theorem State.tagHeld_iff {s : State} {q : Request} : s.tagHeld q = true ↔ s.Holds q := by
  simp only [State.tagHeld, List.any_eq_true, List.mem_finRange, true_and, Option.any_eq_true, Bool.and_eq_true,
    decide_eq_true_eq, State.Holds]
  refine exists_congr fun i => ⟨?_, ?_⟩
  · rintro ⟨e, he, hp, ho⟩
    cases h : e.origin <;> simp [h] at ho
    exact ⟨e, _, he, hp, h, ho⟩
  · rintro ⟨e, t, he, hp, ho, ht⟩
    exact ⟨e, he, hp, by simpa [ho] using ht⟩

/-- The row of ACCEPTANCE, when a request waits and the requester pool has an entry free. -/
theorem exec_acceptance {before : State} {q : Request} {rest : List Request} {i : Fin 64}
    (hq : (before.settleBefore .acceptance).port.requests = q :: rest)
    (hi : (before.settleBefore .acceptance).slotFor .requester = some i) :
    exec .acceptance before
      = .next (((before.settleBefore .acceptance).takeRequest rest).decideRequest q i).handCredit := by
  simp [exec, execAcceptance, State.acceptance, hq, hi]

/-- Settles O13: the checks of acceptance one after another. -/
theorem acceptanceAnswersARefusedHead : Obligations.AcceptanceAnswersARefusedHead := by
  intro before q rest i s hq hi answered u decision
  have row : exec .acceptance before = .next (u.decideRequest q i).handCredit := exec_acceptance hq hi
  have answeredBy {x : Status} {v : State} (h : u.decideRequest q i = v.refuseRequest q x) :
      exec .acceptance before = answered x v := by
    rw [row, h]
    rfl
  have good (h : ¬q.Bad) : ¬q.malformed = true := mt Request.malformed_iff.1 h
  refine ⟨fun hb => answeredBy (if_pos (Request.malformed_iff.2 hb)), fun hb hl => answeredBy ?_, fun hb hl => ?_⟩
  · exact (if_neg (good hb)).trans (if_pos hl)
  have up : ¬u.memory.link = .down := by
    have : u.memory.link = .up := hl
    simp [this]
  refine ⟨fun hh => answeredBy ?_, fun hh => ?_⟩
  · exact (if_neg (good hb)).trans ((if_neg up).trans (if_pos (State.tagHeld_iff.2 hh)))
  have free : ¬u.tagHeld q = true := mt State.tagHeld_iff.1 hh
  have decided : u.decideRequest q i = _ := (if_neg (good hb)).trans ((if_neg up).trans (if_neg free))
  have same : u.decideRegion q.requester q.body.kind q.line = decision := rfl
  rw [same] at decided
  refine ⟨fun hd => ?_, fun hd => ?_, fun hd => ?_, fun g r hd hr => ?_⟩
  all_goals rw [hd] at decided
  · exact answeredBy decided
  · exact answeredBy decided
  · exact answeredBy decided
  · have counted : u.modifyRegion g Region.countRefused = u.setRegion g (some r.countRefused) := by
      have : u.region g = some r := hr
      simp [State.modifyRegion, this]
    exact answeredBy (counted ▸ decided)

end Sys2Proof.Machine
end

section
/-! SUPPORT. A memory link that goes UP (O17): what it does to the region table, the spare area and the history
table, and the records it raises, one after another (R155). -/

namespace Sys2Proof.Machine

theorem EventUnit.pushAll_append (ns ms : List Notice) (u : EventUnit) :
    u.pushAll (ns ++ ms) = (u.pushAll ns).pushAll ms := List.foldl_append

/-! ### The regions that are clipped -/

/-- R21: a region after a memory-link up. -/
def Region.clip (capacity : Nat) (r : Region) : Region := if r.clipped capacity then { r with phase := .offline } else r

/-- R21: the record of a region that is clipped. -/
def Region.clipNotice (capacity : Nat) (i : Fin 32) (r : Region) : Option Notice :=
  if r.clipped capacity then some { kind := .regionClipped, region := some i, line := some r.limit } else none

theorem State.region_clipRegion (n : Nat) (s : State) (i j : Fin 32) :
    (s.clipRegion n i).region j = if i = j then (s.region j).map (Region.clip n) else s.region j := by
  unfold State.clipRegion
  split
  · rename_i hr
    split
    · subst j
      simp [hr]
    · rfl
  · rename_i r hr
    by_cases hc : r.clipped n = true
    · have set : (State.raise { kind := .regionClipped, region := some i, line := some r.limit }
          (s.setRegion i (some { r with phase := .offline }))).region j
          = if i = j then some { r with phase := .offline } else s.region j := State.region_setRegion ..
      rw [if_pos hc, set]
      split
      · subst j
        simp [hr, Region.clip, hc]
      · rfl
    · rw [if_neg hc]
      split
      · subst j
        simp [hr, Region.clip, hc]
      · rfl

theorem State.clipRegion_events (n : Nat) (s : State) (i : Fin 32) :
    (s.clipRegion n i).events = s.events.pushAll ((s.region i).bind (Region.clipNotice n i)).toList := by
  unfold State.clipRegion
  split
  · rename_i hr
    simp [hr, EventUnit.pushAll]
  · rename_i r hr
    split <;> simp [Region.clipNotice, *, EventUnit.pushAll]

/-- The regions at some indices after they are clipped one after another, and the records raised. -/
theorem State.clipRegion_foldl (n : Nat) {l : List (Fin 32)} (hl : l.Nodup) (s : State) :
    (∀ j, (l.foldl (State.clipRegion n) s).region j
        = if j ∈ l then (s.region j).map (Region.clip n) else s.region j)
      ∧ (l.foldl (State.clipRegion n) s).events
        = s.events.pushAll (l.filterMap fun i => (s.region i).bind (Region.clipNotice n i)) := by
  induction l generalizing s with
  | nil => exact ⟨fun j => by simp, rfl⟩
  | cons i is ih =>
    obtain ⟨hi, his⟩ := List.nodup_cons.1 hl
    obtain ⟨regions, events⟩ := ih his (s.clipRegion n i)
    refine ⟨fun j => ?_, ?_⟩
    · rw [List.foldl_cons, regions, State.region_clipRegion]
      by_cases hij : i = j
      · subst j
        simp [hi]
      · simp [hij, Ne.symm hij]
    · have others : is.filterMap (fun k => ((s.clipRegion n i).region k).bind (Region.clipNotice n k))
          = is.filterMap fun k => (s.region k).bind (Region.clipNotice n k) :=
        List.filterMap_congr fun k hk => by
          rw [State.region_clipRegion, if_neg (by rintro rfl; exact hi hk)]
      rw [List.foldl_cons, events, others, State.clipRegion_events, ← EventUnit.pushAll_append, List.filterMap_cons]
      cases (s.region i).bind (Region.clipNotice n i) <;> rfl

/-- R21: every region that is clipped, wherever it stands in the table. -/
theorem State.clipRegions_effect (n : Nat) (s : State) :
    (∀ j, (s.clipRegions n).region j = (s.region j).map (Region.clip n))
      ∧ (s.clipRegions n).events
        = s.events.pushAll ((List.finRange 32).filterMap fun i => (s.region i).bind (Region.clipNotice n i)) := by
  obtain ⟨regions, events⟩ := State.clipRegion_foldl n (List.nodup_finRange 32) s
  exact ⟨fun j => (regions j).trans (if_pos (List.mem_finRange j)), events⟩

/-! ### The queued retirements that fail -/

/-- R136: the record of a queued retirement that fails. -/
def RetireEntry.failNotice (q : RetireEntry) : Notice :=
  { kind := .retireFailed, line := some q.line, spare := some q.spare, origin := some q.origin.event,
    reason := some .spareUnavailable, requester := q.origin.name }

/-- R125: a QUEUED history entry of a line whose AUTO retirement failed returns to NONE. -/
def HistoryEntry.unqueuedBy (qs : List RetireEntry) (e : HistoryEntry) : HistoryEntry :=
  if e.retire = .queued ∧ (qs.any fun q => q.line = e.line && q.origin = .auto) = true then { e with retire := .none }
  else e

theorem HistoryEntry.unqueuedBy_cons (q : RetireEntry) (qs : List RetireEntry) (e : HistoryEntry) :
    e.unqueuedBy (q :: qs) = (e.unqueuedBy [q]).unqueuedBy qs := by
  by_cases hq : e.retire = .queued <;> by_cases hl : q.line = e.line <;> by_cases ho : q.origin = .auto <;>
    simp [HistoryEntry.unqueuedBy, hq, hl, ho]

/-- R133: a spare that moves to another state changes the spare table alone. -/
theorem State.setSpare_retirement (i : Nat) (x : SpareState) (s : State) :
    (s.setSpare i x).retirement
      = { s.retirement with area := s.retirement.area.map fun a => { a with spares := a.spares.set i x } } := by
  unfold State.setSpare
  split
  · simp [*]
  · rename_i h
    rw [h, Option.map_none, ← h]

theorem State.slot_failQueued (s : State) (q : RetireEntry) (j : Fin 128) :
    (s.failQueued q).slot j = (s.slot j).map (HistoryEntry.unqueuedBy [q]) := by
  have table : (s.failQueued q).slot j = ((s.setSpare q.spare .free).noticeEnded q.origin q.line).slot j := rfl
  have kept : (s.setSpare q.spare .free).slot j = s.slot j := by simp [State.slot]
  rw [table]
  cases ho : q.origin with
  | auto =>
    have unqueued : ((s.setSpare q.spare .free).noticeEnded .auto q.line).slot j
        = ((s.setSpare q.spare .free).slot j).map fun e =>
          if e.line = q.line ∧ e.retire = .queued then { e with retire := .none } else e := by
      simp [State.slot, State.noticeEnded, State.unqueueHistory]
    rw [unqueued, kept]
    congr 1
    funext e
    simp only [HistoryEntry.unqueuedBy, List.any_cons, List.any_nil, ho]
    simp [and_comm, eq_comm]
  | manual t =>
    have same : HistoryEntry.unqueuedBy [q] = id := by
      funext e
      simp [HistoryEntry.unqueuedBy, ho]
    rw [same, Option.map_id]
    exact kept

/-- R136: the entries of a retire queue fail one after another. -/
theorem State.failQueued_foldl (l : List RetireEntry) (s : State) :
    (l.foldl State.failQueued s).retirement
        = { s.retirement with area := s.retirement.area.map fun a =>
              { a with spares := l.foldl (fun xs q => xs.set q.spare .free) a.spares } }
      ∧ (∀ j, (l.foldl State.failQueued s).slot j = (s.slot j).map (HistoryEntry.unqueuedBy l))
      ∧ (l.foldl State.failQueued s).events = s.events.pushAll (l.map RetireEntry.failNotice) := by
  induction l generalizing s with
  | nil =>
    refine ⟨?_, fun j => ?_, rfl⟩
    · cases h : s.retirement.area <;> simp [← h]
    · have same : HistoryEntry.unqueuedBy [] = id := by
        funext e
        simp [HistoryEntry.unqueuedBy]
      simp [same]
  | cons q qs ih =>
    obtain ⟨retirement, slots, events⟩ := ih (s.failQueued q)
    refine ⟨?_, fun j => ?_, ?_⟩
    · have freed : (s.failQueued q).retirement = (s.setSpare q.spare .free).retirement := by simp [State.failQueued]
      rw [List.foldl_cons, retirement, freed, State.setSpare_retirement]
      simp [Function.comp_def]
    · rw [List.foldl_cons, slots, State.slot_failQueued, Option.map_map]
      congr 1
      funext e
      exact (HistoryEntry.unqueuedBy_cons q qs e).symm
    · have raised : (s.failQueued q).events = s.events.push q.failNotice := by
        simp [State.failQueued, RetireEntry.failNotice]
      rw [List.foldl_cons, events, raised]
      rfl

/-! ### The spare area is compared with the capacity -/

theorem State.clipSpares_of_none {n : Nat} {s : State} (h : s.retirement.area = none) : s.clipSpares n = s := by
  simp only [State.clipSpares, h]

theorem State.clipSpares_of_within {n : Nat} {s : State} {a : SpareArea} (h : s.retirement.area = some a)
    (hn : ¬n < a.base.toNat + a.spares.length) :
    s.clipSpares n = { s with retirement := { s.retirement with unavailable := false } } := by
  simp only [State.clipSpares, h, if_neg hn]

theorem State.clipSpares_of_beyond {n : Nat} {s : State} {a : SpareArea} (h : s.retirement.area = some a)
    (hn : n < a.base.toNat + a.spares.length) :
    s.clipSpares n = s.retirement.queue.foldl State.failQueued
      (State.raise { kind := .spareClipped, physical := some a.base, count := some a.spares.length }
        { s with retirement := { s.retirement with unavailable := true, queue := [] } }) := by
  simp only [State.clipSpares, h, if_pos hn]

/-! ### The link goes UP -/

/-- Settles O17: the link rises, the regions are clipped, and the spare area is compared with the capacity. -/
theorem validMemoryHelloTakesTheLinkUp : Obligations.ValidMemoryHelloTakesTheLinkUp := by
  intro s credits capacity
  have row : exec (.memoryHello credits capacity) s = .next (s.settle.memoryHello credits capacity) := rfl
  rw [row]
  generalize s.settle = t
  intro hd hc hc' hn hn' t clips clipped beyond up
  let risen : State := State.raise up { t with memory := t.memory.rise credits.toNat capacity.toNat }
  let v := risen.clipRegions capacity.toNat
  have row : t.memoryHello credits capacity = v.clipSpares capacity.toNat := by
    have hd : t.memory.link = .down := hd
    have valid : helloValid credits capacity = true := by simp [helloValid, hc, hc', hn, hn']
    simp only [State.memoryHello, hd, valid, if_true]
    rfl
  obtain ⟨regions, events⟩ := State.clipRegions_effect capacity.toNat risen
  have regions (i : Fin 32) :
      v.region i = (t.region i).map fun r => if clips r then { r with phase := .offline } else r :=
    regions i
  have events : v.events = t.events.pushAll (up :: clipped) := events
  have memory : v.memory = { t.memory with
      link := .up, announced := some credits.toNat, capacity := some capacity.toNat, records := []
      helloStart := none } := by
    simp [v, risen, MemoryPort.rise]
  have others : v.port = t.port ∧ v.tracker = t.tracker ∧ v.patrol = t.patrol ∧ v.management = t.management
      ∧ v.pending = t.pending := by simp [v, risen]
  have retirement : v.retirement = t.retirement := by simp [v, risen]
  have history : v.history = t.history := by simp [v, risen]
  clear_value v
  obtain ⟨port, tracker, patrol, management, pending⟩ := others
  refine ⟨_, congrArg _ row, by simp [memory], fun i => ?_, by simp [port], by simp [tracker], by simp [patrol],
    by simp [management], by simp [pending], fun ha => ?_, fun a ha hb => ?_, fun a ha hb => ?_⟩
  · rw [← regions i]
    simp [State.region]
  · rw [State.clipSpares_of_none ((congrArg Retirement.area retirement).trans ha)]
    exact ⟨retirement, history, events⟩
  · rw [State.clipSpares_of_within ((congrArg Retirement.area retirement).trans ha) hb]
    exact ⟨by rw [retirement], history, events⟩
  · rw [State.clipSpares_of_beyond ((congrArg Retirement.area retirement).trans ha) hb, retirement]
    obtain ⟨failed, slots, raised⟩ := State.failQueued_foldl t.retirement.queue
      (State.raise { kind := .spareClipped, physical := some a.base, count := some a.spares.length }
        { v with retirement := { t.retirement with unavailable := true, queue := [] } })
    refine ⟨?_, fun j => ?_, ?_⟩
    · rw [failed]
      simp [ha]
    · rw [slots]
      exact congrArg (fun h => (h[j.val]).map (HistoryEntry.unqueuedBy t.retirement.queue)) history
    · rw [raised, EventUnit.pushAll_append, ← events]
      rfl

end Sys2Proof.Machine
end

section
/-! SUPPORT. The fall of the requester link (O6), and the state after cold reset (O3, O54). -/

namespace Sys2Proof.Machine

/-! ### What a requester-link reset does to the tracker -/

theorem State.entry_resetEntry (s : State) (i j : Fin 64) :
    (s.resetEntry i).entry j = if i = j then afterReset (s.entry j) else s.entry j := by
  unfold State.resetEntry
  split
  · rename_i he
    split
    · subst j
      simp [he, afterReset]
    · rfl
  · rename_i e he
    by_cases hij : i = j
    · subst j
      (repeat' split) <;> simp_all [State.entry_release, State.entry_setEntry, afterReset]
    · (repeat' split) <;> simp_all [State.entry_release, State.entry_setEntry]

/-- The line orders and the waiting order lose the entry that a reset ends, and nothing else. -/
theorem State.resetEntry_orders (s : State) (i : Fin 64) :
    (s.resetEntry i).tracker.order = s.tracker.order.filter (fun k => !(decide (k = i) && s.endsAtReset k))
      ∧ (s.resetEntry i).memory
        = { s.memory with waiting := s.memory.waiting.filter fun k => !(decide (k = i) && s.endsAtReset k) } := by
  have kept (h : s.endsAtReset i = false) (l : List (Fin 64)) :
      l.filter (fun k => !(decide (k = i) && s.endsAtReset k)) = l :=
    List.filter_eq_self.2 fun k _ => by
      by_cases hk : k = i
      · simp [hk, h]
      · simp [hk]
  have left (h : s.endsAtReset i = true) (l : List (Fin 64)) :
      l.filter (fun k => !(decide (k = i) && s.endsAtReset k)) = l.filter (· ≠ i) :=
    List.filter_congr fun k _ => by
      by_cases hk : k = i
      · simp [hk, h]
      · simp [hk]
  unfold State.resetEntry
  split
  · rename_i he
    have h : s.endsAtReset i = false := by simp [State.endsAtReset, he]
    simp only [kept h, and_self]
  · rename_i e he
    have ends : s.endsAtReset i = e.endsAtReset := by simp [State.endsAtReset, he]
    split
    · rename_i h
      exact ⟨(left (ends.trans h) _).symm,
        congrArg (fun w => { s.memory with waiting := w }) (left (ends.trans h) _).symm⟩
    · rename_i h
      have h : s.endsAtReset i = false := by simpa [ends] using h
      simp only [kept h]
      split <;> exact ⟨rfl, rfl⟩

/-- The entries at some indices are ended or marked one after another. -/
theorem State.resetEntry_foldl {l : List (Fin 64)} (hl : l.Nodup) (s : State) :
    (∀ j, (l.foldl State.resetEntry s).entry j = if j ∈ l then afterReset (s.entry j) else s.entry j)
      ∧ (l.foldl State.resetEntry s).tracker.order
        = s.tracker.order.filter (fun k => !(decide (k ∈ l) && s.endsAtReset k))
      ∧ (l.foldl State.resetEntry s).memory
        = { s.memory with waiting := s.memory.waiting.filter fun k => !(decide (k ∈ l) && s.endsAtReset k) } := by
  induction l generalizing s with
  | nil => simp
  | cons i is ih =>
    obtain ⟨hi, his⟩ := List.nodup_cons.1 hl
    obtain ⟨entries, order, memory⟩ := ih his (s.resetEntry i)
    obtain ⟨order₁, memory₁⟩ := s.resetEntry_orders i
    have both (k : Fin 64) :
        (!(decide (k ∈ is) && (s.resetEntry i).endsAtReset k) && !(decide (k = i) && s.endsAtReset k))
          = !(decide (k ∈ i :: is) && s.endsAtReset k) := by
      by_cases hk : k = i
      · subst k
        simp [hi]
      · simp [hk, State.endsAtReset, State.entry_resetEntry, Ne.symm hk]
    refine ⟨fun j => ?_, ?_, ?_⟩
    · rw [List.foldl_cons, entries, State.entry_resetEntry]
      by_cases hij : i = j
      · subst j
        simp [hi]
      · simp [hij, Ne.symm hij]
    · rw [List.foldl_cons, order, order₁, List.filter_filter]
      exact List.filter_congr fun k _ => both k
    · rw [List.foldl_cons, memory, memory₁]
      simp only [List.filter_filter, both]

/-- R64, R65: the requester entries after a requester-link reset of a port in any state. -/
theorem State.entriesReset (t : State) (p : RequesterPort) :
    EntriesReset t ((List.finRange 64).foldl State.resetEntry { t with port := p }) := by
  obtain ⟨entries, order, memory⟩ := State.resetEntry_foldl (List.nodup_finRange 64) { t with port := p }
  have all (k : Fin 64) : (!(decide (k ∈ List.finRange 64) && State.endsAtReset { t with port := p } k))
      = !t.endsAtReset k := by
    rw [decide_eq_true (List.mem_finRange k), Bool.true_and]
    rfl
  refine ⟨fun i => (entries i).trans (if_pos (List.mem_finRange i)), ?_, ?_, ?_⟩
  · exact order.trans (List.filter_congr fun k _ => all k)
  · exact memory.trans (congrArg (fun w => { t.memory with waiting := w }) (List.filter_congr fun k _ => all k))
  · exact ⟨foldl_frame State.resetEntry (·.patrol) (by simp) _ _,
      foldl_frame State.resetEntry (·.regions) (by simp) _ _,
      foldl_frame State.resetEntry (·.retirement) (by simp) _ _⟩

/-! ### The fall of the requester link -/

/-- A requester-link reset while the link is UP. -/
theorem State.requesterFell {t : State} (h : t.port.link = .up) (why : Reason) :
    RequesterFell t (t.requesterFall why) t.events why := by
  have fell : t.requesterFall why = State.raise { kind := .requesterLinkReset, reason := some why }
      { State.resetRequesters { t with port := t.port.fall } with
        events := { (State.resetRequesters { t with port := t.port.fall }).events with credits := 0 } } := by
    simp only [State.requesterFall, h]
  refine ⟨?_, ⟨_, t.entriesReset t.port.fall, ?_⟩, ?_, ?_⟩
  · rw [fell]
    simp [RequesterPort.fall]
  · rw [fell]
    exact ⟨rfl, rfl, rfl⟩
  · rw [fell]
    simp
  · simp

theorem State.requesterFall_of_down {t : State} (h : t.port.link = .down) (why : Reason) : t.requesterFall why = t := by
  simp only [State.requesterFall, h]

/-- Settles O6: a fall while UP, what is taken while DOWN, and what no arrival finds changed. -/
theorem requesterLinkFallsAndThenTakesOnlyAHello : Obligations.RequesterLinkFallsAndThenTakesOnlyAHello := by
  refine ⟨fun s hu => ?_, fun s hd => ?_, State.settleArrival_keepsTables⟩
  · exact ⟨⟨_, rfl, State.requesterFell hu _⟩, ⟨_, rfl, State.requesterFell hu _⟩⟩
  have down : s.port.link = .down := s.settleArrival_keepsTables.2.2.2.2.2.1 ▸ hd
  have requestFinds : s.requestFinds = s.settleArrival := if_neg (by simp [down])
  have commandFinds : s.commandFinds = s.settleArrival := if_neg (by simp [down])
  have request (q : Request) : s.requestFinds.requestArrives q = s.settleArrival := by
    rw [requestFinds]
    simp only [State.requestArrives, hd]
  have command (c : Command) : s.commandFinds.commandArrives c = s.settleArrival := by
    rw [commandFinds]
    simp only [State.commandArrives, hd]
  have bad (kind : Byte) (n : Nat) : s.settleArrival.requesterBad kind n
      = if kind = 0x08 then s.settleArrival.requesterHello else s.settleArrival := by
    simp only [State.requesterBad, hd]
  refine ⟨congrArg _ (State.requesterFall_of_down hd _), congrArg _ (State.requesterFall_of_down hd _),
    fun kind n hk => ?_, fun n => ?_, fun r t l => ⟨?_, fun d => ?_, fun m d => ?_⟩, fun r t b => ?_⟩
  · exact congrArg _ ((bad kind n).trans (if_neg hk))
  · exact congrArg _ ((bad 0x08 n).trans (if_pos rfl))
  · exact congrArg _ (request _)
  · exact congrArg _ (request _)
  · exact congrArg _ (request _)
  · exact congrArg _ (command _)

/-! ### Cold reset -/

/-- The bridge after a cold reset: the reset state with the manager that the straps give. -/
def State.afterColdReset (p : Straps) (q : List Instr) : State :=
  { State.reset with management := { manager := strapNumber p, frozen := false }, pending := q }

theorem exec_coldReset (p : Straps) (s : State) : exec (.coldReset p) s = .next (.afterColdReset p s.pending) := rfl

theorem strapNumber_val (p : Straps) : (strapNumber p).val
    = (if p.a then 1 else 0) + (if p.b then 2 else 0) + (if p.c then 4 else 0) + (if p.d then 8 else 0) := by
  obtain ⟨a, b, c, d⟩ := p
  revert a b c d
  decide

/-- After cold reset every table is empty. -/
theorem State.afterColdReset_tables (p : Straps) (q : List Instr) :
    (∀ i, (State.afterColdReset p q).region i = none) ∧ (∀ i, (State.afterColdReset p q).entry i = none)
      ∧ ∀ i, (State.afterColdReset p q).slot i = none := by
  simp [State.afterColdReset, State.reset, State.region, State.entry, State.slot]

/-- Settles O3: block by block. -/
theorem coldResetEmptiesEveryBlock : Obligations.ColdResetEmptiesEveryBlock := by
  intro p s
  obtain ⟨regions, entries, slots⟩ := State.afterColdReset_tables p s.pending
  exact ⟨_, exec_coldReset p s, ⟨rfl, rfl, rfl, rfl, rfl, rfl⟩, regions, entries, rfl,
    ⟨rfl, rfl, rfl, rfl, rfl, rfl, rfl, rfl⟩, ⟨rfl, rfl, rfl, rfl, rfl, rfl⟩, slots, ⟨rfl, rfl, rfl, rfl, rfl⟩,
    ⟨rfl, rfl, rfl, rfl, rfl⟩, rfl, strapNumber_val p, rfl⟩

/-- A bridge without a tracker entry, a waiting entry or an issue record is in order in its tracker, whatever its links,
if no fill is active. -/
theorem State.TrackerSound.of_empty {s : State} (he : ∀ i, s.entry i = none) (ho : s.tracker.order = [])
    (hw : s.memory.waiting = []) (hr : s.memory.records = []) (hf : s.patrol.fill = none) : s.TrackerSound where
  pools p := by simp [State.occupancy, he]
  entry i e h := by simp [he] at h
  orderNodup := by simp [ho]
  order i := by simp [ho, he]
  owner i e h := by simp [he] at h
  waitingNodup := by simp [hw]
  joined := ⟨[], [], by simp [hw], by simp, by simp, .nil⟩
  waiting i := by simp [hw, he]
  recordNodup := by simp [hr]
  record i := by simp [hr, he]
  op r e h := by simp [hr] at h
  down _ i := he i
  copy i e h := by simp [he] at h
  fill _ := hf

/-- A retirement unit without an area, a queue, a map and a copy is in order. -/
theorem State.RetirementSound.of_empty {s : State} (ha : s.retirement.area = none) (hq : s.retirement.queue = [])
    (hm : s.retirement.map = []) (hc : s.retirement.copy = none) : s.RetirementSound where
  queue := ⟨by simp [hq], by simp [hq], by simp [hc], by simp [hm]⟩
  area := by simp [ha]
  noArea _ := ⟨hq, hm, hc⟩
  inUse := by simp [ha]
  mapSpares := by simp [hm]
  reserved := by simp [ha]
  promised := by simp [Retirement.promised, hq, hc]
  length := by simp [hm]
  outside := by simp [ha]
  active := by simp [hm]
  copying := by simp [hm]
  held := by simp [hc]

/-- The event unit and the two ports are in order in the reset state. -/
theorem reset_unitsSound : State.reset.events.Sound ∧ State.reset.port.Sound ∧ State.reset.memory.Sound :=
  ⟨⟨by decide, by decide, by decide, by decide, by simp [State.reset]⟩,
    ⟨by decide, by decide, fun _ => ⟨rfl, rfl, rfl, rfl, rfl⟩⟩, ⟨by decide, by decide, by decide, by decide, by decide⟩⟩

/-- Settles O54: with empty tables and queues every law holds. -/
theorem resetStateIsInOrder : Obligations.ResetStateIsInOrder := by
  intro p s t h
  obtain rfl : t = State.afterColdReset p s.pending := by
    injection (exec_coldReset p s).symm.trans h with e
    exact e.symm
  obtain ⟨regions, entries, slots⟩ := State.afterColdReset_tables p s.pending
  obtain ⟨regionsSound, fillSound⟩ : (State.afterColdReset p s.pending).RegionsAndFill := reset_regionsAndFill _ _
  obtain ⟨eventsSound, portSound, memorySound⟩ := reset_unitsSound
  exact ⟨eventsSound, portSound, memorySound, ⟨Nat.zero_le 8, .nil⟩, regionsSound, fillSound,
    ⟨by simp [slots], by simp [slots], by simp [slots]⟩, .of_empty rfl rfl rfl rfl, .of_empty entries rfl rfl rfl rfl⟩

end Sys2Proof.Machine
end

section
/-! SUPPORT. What the coder answers for a stored line (O36, O37, O38): the outcome by its place among the valid lines and
the void form, and the distances that damage leaves. -/

namespace Sys2Proof.Machine

/-! ### The outcome of a line -/

theorem classify_encodeLine (d : Data) : classify (encodeLine d) = (.clean, d) := by
  have valid : isValid (encodeLine d) = true := (isValid_iff _).2 ⟨d, rfl⟩
  simp [classify, valid]

theorem classify_voidForm : classify voidForm = (.void, zeroData) := by
  simp [classify, isValid_voidForm]

/-- A line one off a valid line is given that line's data. -/
theorem OneOff.classify {l : StoredLine} {p : Fin 72} {d : Data} (h : OneOff l p d) :
    classify l = (.corrected p, d) := by
  simp [Machine.classify, h.not_valid, h.not_void, findCorrection_of_oneOff h]

/-- A line that is neither valid, nor the void form, nor one off a valid line keeps its data. -/
theorem classify_of_not_oneOff {l : StoredLine} (hl : isValid l = false) (hv : l ≠ voidForm)
    (h : ∀ p d, ¬OneOff l p d) : classify l = (.uncorrectable, dataOf l) := by
  simp [classify, hl, hv, findCorrection_of_none hl h]

/-- The search for a correction is made for lines that are not the void form, so no other line is read as VOID. -/
theorem classify_eq_void_iff {l : StoredLine} : (classify l).1 = .void ↔ l = voidForm := by
  refine ⟨fun h => ?_, fun h => by rw [h, classify_voidForm]⟩
  unfold classify at h
  split at h
  case isTrue => cases h
  case isFalse =>
    split at h
    case isTrue hv => exact hv
    case isFalse => split at h <;> cases h

/-- VOID is returned with zero data (R28). -/
theorem classify_data_of_void {l : StoredLine} (h : (classify l).1 = .void) : (classify l).2 = zeroData := by
  rw [classify_eq_void_iff.1 h, classify_voidForm]

/-! ### Damage -/

/-- Lines that differ at two places are at distance two or more. -/
theorem two_le_symbolDistance {a b : StoredLine} {p q : Fin 72} (hpq : p ≠ q) (hp : a[p.val] ≠ b[p.val])
    (hq : a[q.val] ≠ b[q.val]) : 2 ≤ symbolDistance a b := by
  rw [← Finset.card_pair hpq]
  refine Finset.card_le_card fun i hi => ?_
  rcases Finset.mem_insert.1 hi with rfl | hi
  · simpa using hp
  · obtain rfl := Finset.mem_singleton.1 hi
    simpa using hq

/-- Two damaged symbols move a line by at most two. -/
theorem symbolDistance_set_set_le (a : StoredLine) (p q : Fin 72) (v w : Byte) :
    symbolDistance a ((a.set p.val v).set q.val w) ≤ 2 := by
  have first := symbolDistance_set_le a p v
  have second := symbolDistance_set_le (a.set p.val v) q w
  have both := symbolDistance_triangle a (a.set p.val v) ((a.set p.val v).set q.val w)
  omega

/-- The symbol written over differs from that of another line if the byte written does. -/
theorem set_getElem_ne {a b : StoredLine} {p : Fin 72} {v : Byte} (h : v ≠ b[p.val]) :
    (a.set p.val v)[p.val] ≠ b[p.val] := by
  rwa [Vector.getElem_set_self]

/-- Damage to a second symbol leaves the first as it was damaged. -/
theorem set_set_getElem_ne {a : StoredLine} {p q : Fin 72} {v w : Byte} (hpq : p ≠ q) (h : v ≠ a[p.val]) :
    ((a.set p.val v).set q.val w)[p.val] ≠ a[p.val] := by
  rw [Vector.getElem_set_ne _ _ fun e => hpq (Fin.ext e.symm)]
  exact set_getElem_ne h

theorem four_le_symbolDistance_encodeLine {a b : Data} (h : a ≠ b) :
    4 ≤ symbolDistance (encodeLine a) (encodeLine b) := Config.checkBytes_lawful.valid_far a b h

theorem four_le_symbolDistance_voidForm (d : Data) : 4 ≤ symbolDistance voidForm (encodeLine d) :=
  Config.checkBytes_lawful.void_far d

/-- Two or more symbols away from every valid line there is nothing to correct. -/
theorem classify_of_far {l : StoredLine} (h : ∀ d, 2 ≤ symbolDistance l (encodeLine d)) (hv : l ≠ voidForm) :
    classify l = (.uncorrectable, dataOf l) := by
  obtain ⟨notValid, notOneOff⟩ := not_oneOff_of_far h
  exact classify_of_not_oneOff notValid hv notOneOff

/-- A line up to two symbols off the void form is not near a valid line, as the void form is four off. -/
theorem classify_near_voidForm {l : StoredLine} (near : symbolDistance voidForm l ≤ 2) (hv : l ≠ voidForm) :
    (classify l).1 = .uncorrectable := by
  have far (d : Data) : 2 ≤ symbolDistance l (encodeLine d) := by
    have triangle := symbolDistance_triangle voidForm l (encodeLine d)
    have apart := four_le_symbolDistance_voidForm d
    omega
  rw [classify_of_far far hv]

/-- A line two symbols off a valid line is as far from the others, and is not the void form. -/
theorem classify_two_off {l : StoredLine} {d : Data} (h : symbolDistance (encodeLine d) l = 2) :
    (classify l).1 = .uncorrectable := by
  have far (e : Data) : 2 ≤ symbolDistance l (encodeLine e) := by
    by_cases hde : d = e
    · rw [← hde, symbolDistance_comm, h]
    · have triangle := symbolDistance_triangle (encodeLine d) l (encodeLine e)
      have apart := four_le_symbolDistance_encodeLine hde
      omega
  have notVoid : l ≠ voidForm := by
    rintro rfl
    have apart := four_le_symbolDistance_voidForm d
    rw [symbolDistance_comm] at apart
    omega
  rw [classify_of_far far notVoid]

/-- A line all of whose symbols are 00, or FF, is far from every valid line and from the void form. -/
theorem classify_blank {v : Byte} (hv : v = 0x00 ∨ v = 0xFF) :
    (classify (Vector.replicate 72 v)).1 = .uncorrectable := by
  obtain ⟨farFromValid, farFromVoid⟩ := Config.checkBytes_lawful.blank_far v hv
  have far (d : Data) : 2 ≤ symbolDistance (Vector.replicate 72 v) (encodeLine d) :=
    le_trans (by norm_num) (farFromValid d)
  have notVoid : Vector.replicate 72 v ≠ voidForm := by
    intro e
    rw [e, voidForm, symbolDistance_self] at farFromVoid
    omega
  rw [classify_of_far far notVoid]

/-! ### The obligations -/

/-- Settles O36: one lemma for each outcome; a correction is unique as valid lines are four symbols apart. -/
theorem classificationGivesTheFirstOutcomeThatHolds : Obligations.ClassificationGivesTheFirstOutcomeThatHolds := by
  intro l valid differsAt
  have notValid (h : ¬valid) : isValid l = false := by
    rw [← Bool.not_eq_true, isValid_iff]
    exact h
  refine ⟨?clean, fun _ hv => hv ▸ classify_voidForm, fun _ _ p d (h : OneOff l p d) => h.classify,
    fun h hv nowhere => classify_of_not_oneOff (notValid h) hv nowhere,
    fun p q d e (h : OneOff l p d) (k : OneOff l q e) => h.unique k, fun p hp others => ?_⟩
  case clean =>
    rintro ⟨d, rfl⟩
    rw [classify_encodeLine, dataOf_encodeLine]
  · have near : symbolDistance voidForm l ≤ 1 :=
      symbolDistance_le {p} fun q hq => (others q (by simpa using hq)).symm
    exact classify_near_voidForm (near.trans (by norm_num)) fun e => hp (by rw [e])

/-- Settles O37: the distances of R26 leave room for two damaged symbols. -/
theorem damageIsClassifiedByItsExtent : Obligations.DamageIsClassifiedByItsExtent := by
  refine ⟨classify_encodeLine, fun d p v hv => (OneOff.of_set d p v hv).classify, fun d p q v w hpq hv hw => ?_,
    classify_voidForm, fun p v hv => ?_, fun p q v w _ _ hw => ?_, fun v => classify_blank⟩
  · refine classify_two_off (d := d) (le_antisymm (symbolDistance_set_set_le _ p q v w) ?_)
    exact two_le_symbolDistance hpq (set_set_getElem_ne hpq hv).symm (set_getElem_ne hw).symm
  · have near := symbolDistance_set_le voidForm p v
    exact classify_near_voidForm (near.trans (by norm_num)) fun e => set_getElem_ne (a := voidForm) hv (by rw [e])
  · exact classify_near_voidForm (symbolDistance_set_set_le _ p q v w) fun e =>
      set_getElem_ne (a := voidForm.set p.val v) hw (by rw [e])

/-- A byte is not its own inverse. -/
theorem Byte.not_ne_self (b : Byte) : ~~~b ≠ b := by
  revert b
  decide

/-- R31: each check symbol of the void form is the inverse of that of the zero line. -/
theorem voidForm_check (j : Fin 8) : voidForm[64 + j.val] = ~~~(encodeLine zeroData)[64 + j.val] := by
  rw [voidForm, Config.voidLine, encodeLine, Config.assemble_check _ _ _ j.isLt, Config.assemble_check _ _ _ j.isLt,
    Vector.getElem_map]

/-- R31: the data symbols of the void form are zero. -/
theorem dataOf_voidForm : dataOf voidForm = zeroData := by
  ext i hi
  simp [dataOf, voidForm, Config.voidLine, Config.assemble_data _ _ _ hi]

/-- Settles O38: the void form symbol by symbol, its distance from the valid lines, and the outcome VOID. -/
theorem voidFormIsTheInverseOfTheZeroLine : Obligations.VoidFormIsTheInverseOfTheZeroLine := by
  refine ⟨dataOf_voidForm, fun j => ⟨voidForm_check j, ?_⟩, four_le_symbolDistance_voidForm,
    fun _ => classify_eq_void_iff⟩
  rw [voidForm_check]
  exact Byte.not_ne_self _

end Sys2Proof.Machine
end

section
/-! SUPPORT. The grant of a memory credit (O16): whom the arbiter chooses, and the stored line that an SWRITE carries. -/

namespace Sys2Proof.Machine

/-! ### What a write carries -/

theorem Entry.storedLine_of_void {e : Entry} (h : e.writesVoid = true) : e.storedLine = voidForm := if_pos h

theorem Entry.storedLine_of_data {e : Entry} {d : Data} (h : e.writesVoid = false) (hd : e.data = some d) :
    e.storedLine = encodeLine d := by
  simp [Entry.storedLine, h, hd]

theorem Entry.writesVoid_requester {e : Entry} {k : Ticket} (h : e.origin = .requester k) : e.writesVoid = false := by
  simp [Entry.writesVoid, h]

theorem Entry.writesVoid_fill {e : Entry} (h : e.origin = .fill) : e.writesVoid = false := by
  simp [Entry.writesVoid, h]

/-- R94: a scan or repair voids the line it could not correct. -/
theorem Entry.writesVoid_patrol {e : Entry} (h : e.origin = .scan ∨ e.origin = .repair) :
    e.writesVoid = decide (e.finding = some .uncorrectable) := by
  rcases h with h | h
  all_goals
    cases hf : e.finding with
    | none => simp [Entry.writesVoid, h, hf]
    | some f => cases f <;> simp [Entry.writesVoid, h, hf]

/-- R145: a copy passes on a line that is void as one that could not be corrected. -/
theorem Entry.writesVoid_copy {e : Entry} (h : e.origin = .copy) :
    e.writesVoid = decide (e.finding = some .uncorrectable ∨ e.finding = some .void) := by
  cases hf : e.finding with
  | none => simp [Entry.writesVoid, h, hf]
  | some f => cases f <;> simp [Entry.writesVoid, h, hf]

/-! ### The choice of the arbiter -/

theorem MemoryPort.creditFree_iff {m : MemoryPort} :
    m.creditFree = true ↔ m.link = .up ∧ m.records.length < m.announced.getD 0 := by
  rw [MemoryPort.creditFree, Bool.and_eq_true, decide_eq_true_eq, decide_eq_true_eq, MemoryPort.inUse]

/-- R76: the copy ahead of the waiting order, and else its front. -/
theorem State.granted_of_choice {s : State} {i : Fin 64}
    (h : s.memory.waiting.find? s.isCopy = some i
      ∨ ((∀ j ∈ s.memory.waiting, s.isCopy j = false) ∧ s.memory.waiting.head? = some i)) :
    s.granted = some i := by
  unfold State.granted
  rcases h with found | ⟨noCopy, front⟩
  · rw [found]
  · have absent : s.memory.waiting.find? s.isCopy = none := List.find?_eq_none.2 fun j hj => by simp [noCopy j hj]
    rw [absent, front]

theorem State.granted_of_empty {s : State} (h : s.memory.waiting = []) : s.granted = none := by
  simp [State.granted, h]

/-- R77: a grant issues the operation of the chosen entry. -/
theorem State.issueGrant_of_granted {s : State} {i : Fin 64} {e : Entry} (hc : s.memory.creditFree = true)
    (hg : s.granted = some i) (he : s.entry i = some e) : s.issueGrant = s.issue i e := by
  simp [State.issueGrant, hc, hg, he]

/-- R75: without a free credit, and without an entry that waits, nothing is issued. -/
theorem State.issueGrant_of_none {s : State} (h : ¬s.memory.creditFree = true ∨ s.granted = none) :
    s.issueGrant = s := by
  rcases h with h | h <;> simp [State.issueGrant, h]

/-- Settles O16: the choice of the arbiter, and what the write of each origin carries. -/
theorem issueGrantSendsTheOperation : Obligations.IssueGrantSendsTheOperation := by
  intro before s
  have row : exec .issueGrant before = .next s.issueGrant := rfl
  refine ⟨fun i e up below he choice => ?granted, fun h => ?idle, fun e d hd => ?data, fun e => ?void⟩
  case granted =>
    rw [row, State.issueGrant_of_granted (MemoryPort.creditFree_iff.2 ⟨up, below⟩)
      (State.granted_of_choice choice) he]
    rfl
  case idle =>
    rw [row, State.issueGrant_of_none]
    rw [MemoryPort.creditFree_iff]
    rcases h with down | used | empty
    · exact .inl (by simp [down])
    · exact .inl fun ⟨_, below⟩ => absurd below (not_lt.2 used)
    · exact .inr (State.granted_of_empty empty)
  case data =>
    refine ⟨fun k ho => Entry.storedLine_of_data (Entry.writesVoid_requester ho) hd,
      fun ho => Entry.storedLine_of_data (Entry.writesVoid_fill ho) hd,
      fun ho hu => Entry.storedLine_of_data ?_ hd, fun ho hu hv => Entry.storedLine_of_data ?_ hd⟩
    · simp [Entry.writesVoid_patrol ho, hu]
    · simp [Entry.writesVoid_copy ho, hu, hv]
  case void =>
    refine ⟨fun ho hu => Entry.storedLine_of_void ?_, fun ho hb => Entry.storedLine_of_void ?_⟩
    · simp [Entry.writesVoid_patrol ho, hu]
    · simp [Entry.writesVoid_copy ho, hb]

end Sys2Proof.Machine
end

section
/-! SUPPORT. A completion that is taken with status OK, and the ends of a requester's READ and of the read phase of a
MERGE (O20, O21). -/

namespace Sys2Proof.Machine

/-! ### The row of a completion that is taken -/

/-- R79: a completion taken with status OK frees its credit and does what its kind does for the entry. -/
theorem State.Takes.completion {s : State} {op : MemoryOp} {tag : Byte} {i : Fin 64} {e : Entry}
    (h : s.Takes op tag i e) (finish : Fin 64 → Entry → State → State) :
    s.completion op tag 0 finish = finish i e (s.freeCredit i) := by
  obtain ⟨up, ⟨r, found, kind, rfl⟩, entry, waits⟩ := h
  simp [State.completion, up, found, kind, entry, waits]

/-- The row of SDATA with status OK. -/
theorem State.Takes.exec_sdata {s : State} {tag : Byte} {i : Fin 64} {e : Entry} (h : s.settle.Takes .read tag i e)
    (l : StoredLine) : exec (.sdata tag 0 l) s = .next ((s.settle.freeCredit i).readTaken i e l) :=
  congrArg Host.Outcome.next (h.completion fun i e t => t.readTaken i e l)

/-- The row of SDONE with status OK. -/
theorem State.Takes.exec_sdone {s : State} {tag : Byte} {i : Fin 64} {e : Entry} (h : s.settle.Takes .write tag i e) :
    exec (.sdone tag 0) s = .next ((s.settle.freeCredit i).writeTaken i e) :=
  congrArg Host.Outcome.next (h.completion fun i e t => t.writeTaken i e)

/-! ### What an SDATA does, by origin, kind and mode -/

section
variable {e : Entry} {k : Ticket} (i : Fin 64) (l : StoredLine) (s : State)

theorem State.readTaken_read_unchecked (ho : e.origin = .requester k) (hk : k.kind = .read)
    (hm : e.mode = some .unchecked) : s.readTaken i e l = s.readUnchecked i k (dataOf l) := by
  simp [State.readTaken, ho, hk, hm]

theorem State.readTaken_read_correcting (ho : e.origin = .requester k) (hk : k.kind = .read)
    (hm : e.mode = some .correcting) :
    s.readTaken i e l = s.readDecoded i e k (classify l).1 (classify l).2 := by
  simp [State.readTaken, ho, hk, hm]

theorem State.readTaken_merge_unchecked (ho : e.origin = .requester k) (hk : k.kind = .merge)
    (hm : e.mode = some .unchecked) : s.readTaken i e l = s.mergeUnchecked i e k (dataOf l) := by
  simp [State.readTaken, ho, hk, hm]

theorem State.readTaken_merge_correcting (ho : e.origin = .requester k) (hk : k.kind = .merge)
    (hm : e.mode = some .correcting) :
    s.readTaken i e l = s.mergeDecoded i e k (classify l).1 (classify l).2 := by
  simp [State.readTaken, ho, hk, hm]

theorem State.readTaken_patrol (ho : e.origin = .scan ∨ e.origin = .repair) :
    s.readTaken i e l = s.patrolRead i e (classify l).1 (classify l).2 := by
  rcases ho with ho | ho <;> simp [State.readTaken, ho]

theorem State.readTaken_copy (ho : e.origin = .copy) :
    s.readTaken i e l = s.copyRead i e (classify l).1 (classify l).2 := by
  simp [State.readTaken, ho]

end

/-! ### Answers -/

/-- A READ is answered by an LDATA, unless it is abandoned. -/
theorem State.respondEntry_read {k : Ticket} (h : k.kind = .read) (x : Status) (c : Bool) (d : Data) (s : State) :
    s.respondEntry k x c d = if k.abandoned then s else
      s.hand (.ldata (BitVec.ofNat 8 k.requester.val) (BitVec.ofNat 8 k.tag.val) x c d) := by
  simp [State.respondEntry, State.respond, Ticket.name, h]

/-- A WRITE and a MERGE are answered by an LDONE, unless they are abandoned. -/
theorem State.respondEntry_done {k : Ticket} (h : k.kind ≠ .read) (x : Status) (c : Bool) (d : Data) (s : State) :
    s.respondEntry k x c d = if k.abandoned then s else
      s.hand (.ldone (BitVec.ofNat 8 k.requester.val) (BitVec.ofNat 8 k.tag.val) x) := by
  cases hk : k.kind with
  | read => exact absurd hk h
  | write => simp [State.respondEntry, State.respond, Ticket.name, hk]
  | merge => simp [State.respondEntry, State.respond, Ticket.name, hk]

/-! ### Region counters and reports -/

theorem State.region_of_regions {s t : State} (h : t.regions = s.regions) (g : Fin 32) : t.region g = s.region g :=
  congrArg (fun regions => regions[g.val]) h

theorem State.modifyRegion_of_region {s : State} {g : Fin 32} {r : Region} (h : s.region g = some r)
    (f : Region → Region) : s.modifyRegion g f = s.setRegion g (some (f r)) := by
  simp [State.modifyRegion, h]

/-- A region written back as it stands changes nothing. -/
theorem State.setRegion_self {s : State} {g : Fin 32} {r : Option Region} (h : s.region g = r) :
    s.setRegion g r = s := by
  subst h
  simp [State.setRegion, State.region]

/-- R4, R65: a read's outcome counts in the region of its entry, unless it is abandoned. -/
theorem State.countRead_of_region {s : State} {e : Entry} {g : Fin 32} {r : Region} (hg : e.region = some g)
    (hr : s.region g = some r) (k : Ticket) (f : Finding) :
    s.countRead k e f = if k.abandoned then s else s.setRegion g (some (r.countRead f)) := by
  simp [State.countRead, hg, State.modifyRegion_of_region hr]

/-- A clean read counts nowhere. -/
theorem State.countRead_clean (k : Ticket) (e : Entry) (s : State) : s.countRead k e .clean = s := by
  unfold State.countRead State.modifyRegion
  split
  · rfl
  · split
    · exact State.setRegion_self ‹_›
    · rfl

theorem State.reportsCorrections_of_region {s : State} {g : Fin 32} {r : Region} (h : s.region g = some r) :
    s.reportsCorrections g = r.reportCorrections := by
  simp [State.reportsCorrections, h]

/-- Counting a read leaves the report flag of its region as it is. -/
theorem State.reportsCorrections_countRead (g : Fin 32) (k : Ticket) (e : Entry) (f : Finding) (s : State) :
    (s.countRead k e f).reportsCorrections g = s.reportsCorrections g := by
  unfold State.countRead
  split
  · rfl
  · rw [State.reportsCorrections, State.region_modifyRegion]
    split
    · simp [State.reportsCorrections, Option.any_map, Region.countRead]
    · rfl

/-! ### A READ finishes -/

/-- Offering a line to the repair queue leaves the report flags as they are. -/
theorem State.reportsCorrections_offerIf (g : Fin 32) (b : Bool) (l : LineNo) (s : State) :
    (s.offerIf b l).reportsCorrections g = s.reportsCorrections g :=
  congrArg (·.any (·.reportCorrections)) (State.region_of_regions (by simp) g)

/-- The event of a corrected read depends on the report flag of its region (R58). -/
theorem State.raiseRead_corrected {s : State} {e : Entry} {g : Fin 32} {b : Bool} (hg : e.region = some g)
    (hb : s.reportsCorrections g = b) (p : Fin 72) :
    s.raiseRead e (.corrected p) = if b then s.raise (readNotice .correctedRead e (some p)) else s := by
  simp [State.raiseRead, hg, hb]

/-- Settles O20: the answer, the count, the offer and the event of each outcome. -/
theorem readsFinishOnTheirData : Obligations.ReadsFinishOnTheirData := by
  intro s tag l i e k g r taken ho hk hg hr freed answer counted notice up
  have answered (x : Status) (c : Bool) (d : Data) : freed.respondEntry k x c d = answer x c d :=
    State.respondEntry_read hk x c d freed
  have region (x : Status) (c : Bool) (d : Data) : (answer x c d).region g = some r := by
    rw [← answered]
    exact (State.region_of_regions (by simp [freed]) g).trans hr
  have counts (x : Status) (c : Bool) (d : Data) (f : Finding) :
      (answer x c d).countRead k e f = counted (fun _ => (r.countRead f).stats) (answer x c d) :=
    State.countRead_of_region hg (region x c d) k f
  have reports (x : Status) (c : Bool) (d : Data) (f : Finding) :
      (((answer x c d).countRead k e f).offerIf f.offers e.line).reportsCorrections g = r.reportCorrections := by
    rw [State.reportsCorrections_offerIf, State.reportsCorrections_countRead,
      State.reportsCorrections_of_region (region x c d)]
  have raised (kind : EventKind) (p : Option (Fin 72)) : readNotice kind e p = notice kind p := by
    simp [readNotice, notice, hg, ho, Origin.name, Ticket.name]
  refine ⟨fun hm => ?_, fun hm => ?_⟩
  · rw [taken.exec_sdata, State.readTaken_read_unchecked i l _ ho hk hm, State.readUnchecked, answered]
  have row {f : Finding} (hf : (classify l).1 = f) :
      exec (.sdata tag 0 l) s = .next (((((answer f.status f.isCorrected (classify l).2).countRead k e f).offerIf
        f.offers e.line).raiseRead e f).release i) := by
    rw [taken.exec_sdata, State.readTaken_read_correcting i l _ ho hk hm, hf, State.readDecoded, answered]
  refine ⟨fun hf => ?clean, fun p hf => ?corrected, fun hf => ?uncorrectable, fun hf => ?void⟩
  all_goals rw [row hf]
  case clean =>
    rw [State.countRead_clean]
    rfl
  case corrected =>
    rw [State.raiseRead_corrected hg (reports _ _ _ _) p, raised, counts]
    rfl
  case uncorrectable =>
    rw [counts, ← raised]
    rfl
  case void =>
    rw [counts, ← raised, classify_data_of_void hf]
    rfl

/-! ### The read phase of a MERGE ends -/

/-- R65: an abandoned merge issues no write, and offers its line if its read was in error. -/
theorem State.mergeDecoded_of_abandoned {k : Ticket} (h : k.abandoned = true) (i : Fin 64) (e : Entry) (f : Finding)
    (d : Data) (s : State) : s.mergeDecoded i e k f d = (s.offerIf f.offers e.line).release i := if_pos h

/-- R61: a merge whose read was CLEAN or CORRECTED goes on to its write. -/
theorem State.mergeDecoded_of_good {k : Ticket} (h : k.abandoned = false) {f : Finding}
    (hf : f = .clean ∨ ∃ p, f = .corrected p) (i : Fin 64) (e : Entry) (d : Data) (s : State) :
    s.mergeDecoded i e k f d = s.wait i (e.merged (some f) d) := by
  obtain rfl | ⟨p, rfl⟩ := hf
  · simp [State.mergeDecoded, h]
  · simp [State.mergeDecoded, h]

/-- The lines offered to the repair queue are those in error. -/
theorem Finding.offers_iff {f : Finding} : f.offers = true ↔ ¬(f = .clean ∨ f = .void) := by
  cases f <;> simp [Finding.offers]

/-- R37: the entry that goes on to its write holds the merged data. -/
theorem Entry.merged_of_data {e : Entry} {m : Mask} {new : Data} (hm : e.mask = some m) (hd : e.data = some new)
    (f : Option Finding) (d : Data) :
    e.merged f d = { e with writing := true, finding := f, data := some (mergeData m new d) } := by
  simp [Entry.merged, hm, hd]

/-- Settles O21: by the mode, the abandoned mark and the outcome. -/
theorem mergesReadBeforeTheyWrite : Obligations.MergesReadBeforeTheyWrite := by
  intro s tag l i e k m new taken ho hk hm hd freed done writes
  have answered (x : Status) (ha : k.abandoned = false) : freed.respondEntry k x false zeroData = done x := by
    simp [State.respondEntry_done (k := k) (by simp [hk]), ha, done]
  have merged (f : Option Finding) (d : Data) : freed.wait i (e.merged f d) = writes f d := by
    rw [Entry.merged_of_data hm hd]
    rfl
  have decoded (hc : e.mode = some .correcting) :
      exec (.sdata tag 0 l) s = .next (freed.mergeDecoded i e k (classify l).1 (classify l).2) := by
    rw [taken.exec_sdata, State.readTaken_merge_correcting i l _ ho hk hc]
  refine ⟨fun hu => ?unchecked, fun hc ha => ?abandoned, fun hc ha => ?correcting⟩
  case unchecked =>
    rw [taken.exec_sdata, State.readTaken_merge_unchecked i l _ ho hk hu]
    refine ⟨fun ha => ?_, fun ha => ?_⟩
    · simp [State.mergeUnchecked, ha, freed]
    · rw [← merged]
      simp [State.mergeUnchecked, ha, freed]
  case abandoned =>
    rw [decoded hc, State.mergeDecoded_of_abandoned ha]
    refine ⟨fun hf => ?_, fun hf => ?_⟩
    · have kept : (classify l).1.offers = false := by
        rw [← Bool.not_eq_true, Finding.offers_iff, not_not]
        exact hf
      rw [kept]
      rfl
    · rw [Finding.offers_iff.2 hf]
      rfl
  case correcting =>
    rw [decoded hc]
    refine ⟨fun hf => ?_, fun hf => ?_, fun hf => ?_⟩
    · rw [State.mergeDecoded_of_good ha hf, merged]
    · simp [State.mergeDecoded, hf, ha, answered]
    · simp [State.mergeDecoded, hf, ha, answered]

end Sys2Proof.Machine
end

section
/-! SUPPORT. The reads and writes of scans and repairs (O22), and the read of a copy's source (O23). -/

namespace Sys2Proof.Machine

/-! ### Scans and repairs -/

/-- R93: a scan's or repair's line that is CLEAN or VOID needs nothing. -/
theorem State.patrolRead_of_done {f : Finding} (h : f = .clean ∨ f = .void) (i : Fin 64) (e : Entry) (d : Data)
    (s : State) : s.patrolRead i e f d = s.release i := by
  rcases h with rfl | rfl <;> rfl

/-- The origins of the patrol's entries, as the history table and the event records name them (R120, R153). -/
theorem Origin.patrol_names {o : Origin} {w : WriteBackOrigin} {v : EventOrigin}
    (h : (o = .scan ∧ w = .scan ∧ v = .scan) ∨ (o = .repair ∧ w = .repair ∧ v = .repair)) :
    (o = .scan ∨ o = .repair) ∧ o.writeBack = w ∧ o.event = v := by
  rcases h with ⟨rfl, rfl, rfl⟩ | ⟨rfl, rfl, rfl⟩
  · exact ⟨.inl rfl, rfl, rfl⟩
  · exact ⟨.inr rfl, rfl, rfl⟩

theorem State.writeTaken_patrol {e : Entry} (h : e.origin = .scan ∨ e.origin = .repair) (i : Fin 64) (s : State) :
    s.writeTaken i e = s.patrolWritten i e := by
  rcases h with h | h <;> simp [State.writeTaken, h]

/-- R94: an acknowledged write-back is reported, with REPAIRED before it if the region reports corrections. -/
theorem State.patrolWritten_of_corrected {e : Entry} {g : Fin 32} {p : Fin 72} {b : Bool} {s : State}
    (hf : e.finding = some (.corrected p)) (hg : e.region = some g) (hb : s.reportsCorrections g = b) (i : Fin 64) :
    s.patrolWritten i e = ((if b then
      s.raise { kind := .repaired, line := some e.line, physical := e.physical, region := some g
                origin := some e.origin.event, symbol := some p }
      else s).reportWriteBack e.line g p e.origin.writeBack).release i := by
  simp [State.patrolWritten, hf, hg, hb]

/-- R94: an acknowledged write of the void form raises LINE_VOIDED. -/
theorem State.patrolWritten_of_uncorrectable {e : Entry} (hf : e.finding = some .uncorrectable) (i : Fin 64)
    (s : State) :
    s.patrolWritten i e = (s.raise { kind := .lineVoided, line := some e.line, physical := e.physical
                                     region := e.region, origin := some e.origin.event }).release i := by
  simp [State.patrolWritten, hf]

/-- Settles O22: the read by its outcome, and the write by what the read found. -/
theorem scansAndRepairsReadAndWriteBackTheirLine : Obligations.ScansAndRepairsReadAndWriteBackTheirLine := by
  refine ⟨?read, ?write⟩
  case read =>
    intro s tag l i e taken ho freed
    have row : exec (.sdata tag 0 l) s = .next (freed.patrolRead i e (classify l).1 (classify l).2) := by
      rw [taken.exec_sdata, State.readTaken_patrol i l _ ho]
    rw [row]
    refine ⟨fun hf => ?_, fun p hf => ⟨?_, ?_⟩, fun hf => ⟨?_, ?_⟩⟩
    · rw [State.patrolRead_of_done hf]
    · rw [hf]
      rfl
    · exact Entry.storedLine_of_data (by simp [Entry.writesVoid_patrol, ho]) rfl
    · rw [hf]
      rfl
    · exact Entry.storedLine_of_void (by simp [Entry.writesVoid_patrol, ho])
  case write =>
    intro s tag i e g r o v taken hn hg hr freed notice
    obtain ⟨ho, rfl, rfl⟩ := Origin.patrol_names hn
    have row : exec (.sdone tag 0) s = .next (freed.patrolWritten i e) := by
      rw [taken.exec_sdone, State.writeTaken_patrol ho]
    have reports : freed.reportsCorrections g = r.reportCorrections := State.reportsCorrections_of_region hr
    refine ⟨fun p hf => ?_, fun hf => ?_⟩
    · rw [row, State.patrolWritten_of_corrected hf hg reports]
    · rw [row, State.patrolWritten_of_uncorrectable hf, hg]

/-! ### The copy -/

/-- The entry of a copy whose source has been read (R145): it is to write the data, or the void form, to the spare. -/
def Entry.copied (e : Entry) (f : Finding) (d : Data) (spare : Option LineNo) : Entry :=
  { e with writing := true, finding := some f, physical := spare
           data := if f = .uncorrectable ∨ f = .void then none else some d }

theorem Entry.copied_storedLine_of_bad {e : Entry} (ho : e.origin = .copy) {f : Finding}
    (hf : f = .uncorrectable ∨ f = .void) (d : Data) (spare : Option LineNo) :
    (e.copied f d spare).storedLine = voidForm := by
  refine Entry.storedLine_of_void ?_
  rw [Entry.writesVoid_copy (e := e.copied f d spare) ho]
  simpa [Entry.copied] using hf

theorem Entry.copied_storedLine_of_good {e : Entry} (ho : e.origin = .copy) {f : Finding}
    (hf : ¬(f = .uncorrectable ∨ f = .void)) (d : Data) (spare : Option LineNo) :
    (e.copied f d spare).storedLine = encodeLine d := by
  refine Entry.storedLine_of_data ?_ (if_neg hf)
  rw [Entry.writesVoid_copy (e := e.copied f d spare) ho]
  simpa [Entry.copied] using hf

/-- R145: the read of a copy's source sends the entry on to its write, and sets the copy's void flag. -/
theorem State.copyRead_of_job {s : State} {job : CopyJob} (hj : s.retirement.copy = some job) (i : Fin 64) (e : Entry)
    (f : Finding) (d : Data) :
    s.copyRead i e f d = State.wait i (e.copied f d (s.retirement.spareLine job.spare))
      { s with retirement :=
          { s.retirement with copy := some { job with void := decide (f = .uncorrectable ∨ f = .void) } } } := by
  simp [State.copyRead, hj, Entry.copied, Bool.decide_or]

/-- Settles O23: the entry and the void flag, by whether the source can be given. -/
theorem copiesReadTheirSource : Obligations.CopiesReadTheirSource := by
  intro s tag l i e job a taken ho hj ha bad
  have spare : s.settle.retirement.spareLine job.spare = some (a.base + BitVec.ofNat 32 job.spare) := by
    simp [Retirement.spareLine, ha, SpareArea.line]
  refine ⟨e.copied (classify l).1 (classify l).2 (some (a.base + BitVec.ofNat 32 job.spare)), rfl, ho, rfl, rfl, rfl,
    fun hb => Entry.copied_storedLine_of_bad ho hb _ _, fun hb => Entry.copied_storedLine_of_good ho hb _ _,
    decide bad, decide_eq_true_iff, ?_⟩
  rw [taken.exec_sdata, State.readTaken_copy i l _ ho, State.copyRead_of_job (s := s.settle.freeCredit i) hj, ← spare]
  rfl

end Sys2Proof.Machine
end

section
/-! SUPPORT. The laws of the tracker (O59), part by part, over the table of its entries: what each part keeps when one
entry of the table is written. Every operation on the tracker writes one entry at a time. -/

namespace Sys2Proof.Machine

/-- The entries of the tracker, by index. -/
abbrev EntryTable := Fin 64 → Option Entry

/-- The line order of a line (R44), read from a table and the order in which its entries joined. -/
def lineOrderOf (table : EntryTable) (order : List (Fin 64)) (l : LineNo) : List (Fin 64) :=
  order.filter fun j => (table j).any fun e => e.line = l

theorem State.lineOrder_eq (s : State) (l : LineNo) : s.lineOrder l = lineOrderOf s.entry s.tracker.order l := rfl

/-- R44, R45: the line orders hold each entry that has not expired, once, and an owner stands at the head of its own. -/
structure LineOrdersSound (table : EntryTable) (order : List (Fin 64)) : Prop where
  nodup : order.Nodup
  mem : ∀ j, j ∈ order ↔ ∃ e, table j = some e ∧ e.phase ≠ .expired
  owner : ∀ j e, table j = some e → e.phase ≠ .waitingLine → e.phase ≠ .expired →
    (lineOrderOf table order e.line).head? = some j

/-- R76: the waiting order holds the entries in WAITING_ISSUE, those of the present event last, by index. -/
structure WaitingSound (table : EntryTable) (waiting joined : List (Fin 64)) : Prop where
  nodup : waiting.Nodup
  split : ∃ old new, waiting = old ++ new ∧ (∀ j ∈ old, j ∉ joined) ∧ (∀ j ∈ new, j ∈ joined) ∧ new.Pairwise (· < ·)
  mem : ∀ j, j ∈ waiting ↔ ∃ e, table j = some e ∧ e.phase = .waitingIssue

/-- R68: one issue record for each entry that holds a credit, and of its operation. -/
structure RecordsSound (table : EntryTable) (records : List IssueRecord) : Prop where
  nodup : (records.map (·.tag)).Nodup
  mem : ∀ j, j ∈ records.map (·.tag) ↔ ∃ e, table j = some e ∧ e.phase.holdsCredit = true
  op : ∀ r e, r ∈ records → table r.tag = some e → r.op = e.op

/-- The table with one entry written. -/
def EntryTable.write (table : EntryTable) (i : Fin 64) (x : Option Entry) : EntryTable :=
  fun j => if i = j then x else table j

@[simp] theorem EntryTable.write_self (table : EntryTable) (i : Fin 64) (x : Option Entry) : table.write i x i = x :=
  if_pos rfl

theorem EntryTable.write_of_ne (table : EntryTable) {i j : Fin 64} (h : i ≠ j) (x : Option Entry) :
    table.write i x j = table j := if_neg h

@[simp] theorem Phase.holdsCredit_of : Phase.waitingLine.holdsCredit = false ∧ Phase.waitingIssue.holdsCredit = false
    ∧ Phase.awaitingData.holdsCredit = true ∧ Phase.awaitingDone.holdsCredit = true
    ∧ Phase.expired.holdsCredit = true := ⟨rfl, rfl, rfl, rfl, rfl⟩

/-! ### Line orders -/

section
variable {table : EntryTable} {order : List (Fin 64)} {i : Fin 64}

theorem lineOrderOf_congr {table' : EntryTable} (h : ∀ j ∈ order, (table' j).map (·.line) = (table j).map (·.line))
    (l : LineNo) : lineOrderOf table' order l = lineOrderOf table order l := by
  refine List.filter_congr fun j hj => ?_
  have := h j hj
  cases ht : table j <;> cases ht' : table' j <;> simp_all

/-- R44: a new entry joins the end of its line order. -/
theorem LineOrdersSound.insert (h : LineOrdersSound table order) (hi : table i = none) {e : Entry}
    (hp : e.phase = .waitingLine) : LineOrdersSound (table.write i (some e)) (order ++ [i]) := by
  have absent : i ∉ order := fun hm => by
    obtain ⟨_, he, -⟩ := (h.mem i).1 hm
    simp [hi] at he
  refine ⟨?_, fun j => ?_, fun j x hx hw hexp => ?_⟩
  · exact List.nodup_append.2 ⟨h.nodup, List.nodup_singleton i, fun j hj k hk hjk => absent (by simp_all)⟩
  · by_cases hij : i = j
    · subst j
      simp [hp]
    · simp [EntryTable.write_of_ne _ hij, h.mem j, Ne.symm hij]
  · by_cases hij : i = j
    · subst j
      obtain rfl : e = x := by simpa using hx
      exact absurd hp hw
    · rw [EntryTable.write_of_ne _ hij] at hx
      have old : lineOrderOf (table.write i (some e)) order x.line = lineOrderOf table order x.line :=
        lineOrderOf_congr (fun k hk => by rw [EntryTable.write_of_ne _ fun hik : i = k => absent (hik ▸ hk)]) _
      have split : lineOrderOf (table.write i (some e)) (order ++ [i]) x.line
          = lineOrderOf (table.write i (some e)) order x.line ++ lineOrderOf (table.write i (some e)) [i] x.line :=
        List.filter_append ..
      rw [split, old, List.head?_append, h.owner j x hx hw hexp, Option.some_or]

/-- R45: an entry that expires or leaves the tracker leaves its line order. -/
theorem LineOrdersSound.remove (h : LineOrdersSound table order) {x : Option Entry}
    (hx : ∀ e, x = some e → e.phase = .expired) : LineOrdersSound (table.write i x) (order.filter (· ≠ i)) := by
  refine ⟨h.nodup.filter _, fun j => ?_, fun j e he hw hexp => ?_⟩
  · by_cases hij : i = j
    · subst j
      simpa using hx
    · simp [EntryTable.write_of_ne _ hij, h.mem j, Ne.symm hij]
  · by_cases hij : i = j
    · subst j
      exact absurd (hx e (by simpa using he)) hexp
    · rw [EntryTable.write_of_ne _ hij] at he
      obtain ⟨rest, hr⟩ := List.head?_eq_some_iff.1 (h.owner j e he hw hexp)
      have rest_of : lineOrderOf (table.write i x) (order.filter (· ≠ i)) e.line
          = (lineOrderOf table order e.line).filter (· ≠ i) := by
        rw [lineOrderOf_congr (table := table) fun k hk => ?_]
        · exact List.filter_comm ..
        · rw [EntryTable.write_of_ne _ fun hik => by simp [hik] at hk]
      rw [rest_of, hr, List.filter_cons_of_pos (by simpa using Ne.symm hij)]
      rfl

/-- An entry that moves on in its place: past WAITING_LINE only at the head of its line order. -/
theorem LineOrdersSound.replace (h : LineOrdersSound table order) {e e' : Entry} (hi : table i = some e)
    (hl : e'.line = e.line) (hold : e.phase ≠ .expired) (hnew : e'.phase ≠ .expired)
    (hh : e'.phase ≠ .waitingLine → (lineOrderOf table order e.line).head? = some i) :
    LineOrdersSound (table.write i (some e')) order := by
  have same (l : LineNo) : lineOrderOf (table.write i (some e')) order l = lineOrderOf table order l :=
    lineOrderOf_congr (fun j _ => by
      by_cases hij : i = j
      · subst j
        simp [hi, hl]
      · rw [EntryTable.write_of_ne _ hij]) l
  refine ⟨h.nodup, fun j => ?_, fun j x hx hw hexp => ?_⟩
  · by_cases hij : i = j
    · subst j
      simp [h.mem, hi, hold, hnew]
    · rw [EntryTable.write_of_ne _ hij, h.mem]
  · rw [same]
    by_cases hij : i = j
    · subst j
      obtain rfl : e' = x := by simpa using hx
      rw [hl]
      exact hh hw
    · rw [EntryTable.write_of_ne _ hij] at hx
      exact h.owner j x hx hw hexp

end

/-! ### The waiting order -/

section
variable {table : EntryTable} {waiting joined : List (Fin 64)} {i : Fin 64} {x : Option Entry}

theorem nodup_joinWaiting {l : List (Fin 64)} (hl : l.Nodup) (hi : i ∉ l) : (joinWaiting joined i l).Nodup := by
  induction l with
  | nil => simp [joinWaiting]
  | cons k ks ih =>
    obtain ⟨hk, hks⟩ := List.nodup_cons.1 hl
    obtain ⟨hik, hi⟩ := not_or.1 (mt List.mem_cons.2 hi)
    unfold joinWaiting
    split
    · exact List.nodup_cons.2 ⟨by simp [hik, hi], hl⟩
    · refine List.nodup_cons.2 ⟨fun hm => ?_, ih hks hi⟩
      obtain h | h := mem_joinWaiting.1 hm
      · exact hik h.symm
      · exact hk h

/-- R76: an entry that enters WAITING_ISSUE joins the waiting order, by index among those of the event. -/
theorem WaitingSound.join (h : WaitingSound table waiting joined) {e' : Entry}
    (hi : ∀ e, table i = some e → e.phase ≠ .waitingIssue) (hp : e'.phase = .waitingIssue) :
    WaitingSound (table.write i (some e')) (joinWaiting joined i waiting) (joined ++ [i]) := by
  have absent : i ∉ waiting := fun hm => by
    obtain ⟨e, he, hw⟩ := (h.mem i).1 hm
    exact hi e he hw
  obtain ⟨old, new, rfl, ho, hn, hs⟩ := h.split
  obtain ⟨hio, hin⟩ : i ∉ old ∧ i ∉ new := by simpa using absent
  have joins := joinWaiting_append ho hn hs hin
  refine ⟨?_, ⟨old, new.filter (· < i) ++ i :: new.filter (i < ·), joins, fun j hj => ?_, fun j hj => ?_, ?_⟩, fun j => ?_⟩
  · exact nodup_joinWaiting h.nodup absent
  · simpa using ⟨ho j hj, fun hji => hio (hji ▸ hj)⟩
  · have : j = i ∨ j ∈ new := by
      simp only [List.mem_append, List.mem_cons, List.mem_filter] at hj
      tauto
    simpa [or_comm] using this.imp_right (hn j)
  · refine List.pairwise_append.2 ⟨hs.filter _, List.pairwise_cons.2 ⟨by simp, hs.filter _⟩, fun a ha b hb => ?_⟩
    have ha : a < i := by simpa using (List.mem_filter.1 ha).2
    obtain rfl | hb := List.mem_cons.1 hb
    · exact ha
    · exact ha.trans (by simpa using (List.mem_filter.1 hb).2)
  · rw [mem_joinWaiting]
    by_cases hij : i = j
    · subst j
      simp [hp]
    · simp [EntryTable.write_of_ne _ hij, Ne.symm hij, h.mem j]

/-- An entry that is issued or leaves the tracker leaves the waiting order. -/
theorem WaitingSound.leave (h : WaitingSound table waiting joined) (hx : ∀ e, x = some e → e.phase ≠ .waitingIssue) :
    WaitingSound (table.write i x) (waiting.filter (· ≠ i)) joined := by
  obtain ⟨old, new, hw, ho, hn, hs⟩ := h.split
  refine ⟨h.nodup.filter _, ⟨old.filter (· ≠ i), new.filter (· ≠ i), by rw [hw, List.filter_append], ?_, ?_,
    hs.filter _⟩, fun j => ?_⟩
  · exact fun j hj => ho j (List.mem_of_mem_filter hj)
  · exact fun j hj => hn j (List.mem_of_mem_filter hj)
  · by_cases hij : i = j
    · subst j
      simpa using hx
    · simp [EntryTable.write_of_ne _ hij, h.mem j, Ne.symm hij]

/-- An entry that neither enters nor leaves WAITING_ISSUE leaves the waiting order as it is. -/
theorem WaitingSound.stay (h : WaitingSound table waiting joined)
    (hx : (∃ e, x = some e ∧ e.phase = .waitingIssue) ↔ ∃ e, table i = some e ∧ e.phase = .waitingIssue) :
    WaitingSound (table.write i x) waiting joined :=
  ⟨h.nodup, h.split, fun j => by
    by_cases hij : i = j
    · subst j
      rw [EntryTable.write_self, hx, h.mem]
    · rw [EntryTable.write_of_ne _ hij, h.mem]⟩

/-- At the end of an event what has joined the waiting order joined it at an earlier one. -/
theorem WaitingSound.close (h : WaitingSound table waiting joined) : WaitingSound table waiting [] :=
  ⟨h.nodup, ⟨waiting, [], by simp, by simp, by simp, .nil⟩, h.mem⟩

end

/-! ### Issue records -/

section
variable {table : EntryTable} {records : List IssueRecord} {i : Fin 64} {x : Option Entry}

/-- R77: the record of an operation that is issued. -/
theorem RecordsSound.issue (h : RecordsSound table records) (hi : ∀ e, table i = some e → e.phase.holdsCredit = false)
    {e' : Entry} (hp : e'.phase.holdsCredit = true) {r : IssueRecord} (ht : r.tag = i) (ho : r.op = e'.op) :
    RecordsSound (table.write i (some e')) (records ++ [r]) := by
  have absent : i ∉ records.map (·.tag) := fun hm => by
    obtain ⟨e, he, hc⟩ := (h.mem i).1 hm
    simp [hi e he] at hc
  refine ⟨?_, fun j => ?_, fun q e hq he => ?_⟩
  · rw [List.map_append]
    exact List.nodup_append.2 ⟨h.nodup, List.nodup_singleton _, by
      intro a ha b hb hab
      obtain rfl : b = i := by simpa [ht] using hb
      exact absent (hab ▸ ha)⟩
  · rw [List.map_append, List.mem_append, h.mem]
    by_cases hij : i = j
    · subst j
      simp [ht, hp]
    · simp [EntryTable.write_of_ne _ hij, ht, Ne.symm hij]
  · obtain hq | hq := List.mem_append.1 hq
    · have hij : i ≠ q.tag := fun hij => absent (hij ▸ List.mem_map_of_mem hq)
      exact h.op q e hq (by rwa [EntryTable.write_of_ne _ hij] at he)
    · obtain rfl : q = r := by simpa using hq
      subst ht
      obtain rfl : e' = e := by simpa using he
      exact ho

/-- R75: a credit that is freed, its entry holding none any more. -/
theorem RecordsSound.free (h : RecordsSound table records) (hx : ∀ e, x = some e → e.phase.holdsCredit = false) :
    RecordsSound (table.write i x) (records.filter fun r => r.tag ≠ i) := by
  refine ⟨h.nodup.sublist (List.filter_sublist.map _), fun j => ?_, fun q e hq he => ?_⟩
  · by_cases hij : i = j
    · subst j
      refine iff_of_false (by simp) ?_
      rintro ⟨e, he, hc⟩
      simp [hx e (by simpa using he)] at hc
    · rw [EntryTable.write_of_ne _ hij, ← h.mem]
      simp only [List.mem_map, List.mem_filter]
      exact exists_congr fun r => ⟨fun ⟨⟨hr, _⟩, ht⟩ => ⟨hr, ht⟩,
        fun ⟨hr, ht⟩ => ⟨⟨hr, by simpa [ht] using Ne.symm hij⟩, ht⟩⟩
  · obtain ⟨hq, hij⟩ := List.mem_filter.1 hq
    exact h.op q e hq (by rwa [EntryTable.write_of_ne _ (Ne.symm (by simpa using hij))] at he)

/-- An entry that keeps its credit and its operation, or holds none before and after, leaves the records as they are. -/
theorem RecordsSound.stay (h : RecordsSound table records)
    (hx : (∃ e, x = some e ∧ e.phase.holdsCredit = true) ↔ ∃ e, table i = some e ∧ e.phase.holdsCredit = true)
    (ho : ∀ e, x = some e → e.phase.holdsCredit = true → ∃ e', table i = some e' ∧ e.op = e'.op) :
    RecordsSound (table.write i x) records := by
  have mem (j : Fin 64) : j ∈ records.map (·.tag) ↔ ∃ e, table.write i x j = some e ∧ e.phase.holdsCredit = true := by
    by_cases hij : i = j
    · subst j
      rw [EntryTable.write_self, hx, h.mem]
    · rw [EntryTable.write_of_ne _ hij, h.mem]
  refine ⟨h.nodup, mem, fun r e hr he => ?_⟩
  by_cases hij : i = r.tag
  · obtain ⟨e₁, he₁, hc⟩ := (mem r.tag).1 (List.mem_map_of_mem hr)
    obtain rfl : e = e₁ := Option.some.inj (he.symm.trans he₁)
    subst hij
    obtain ⟨e', he', hop⟩ := ho e (by simpa using he) hc
    exact (h.op r e' hr he').trans hop.symm
  · exact h.op r e hr (by rwa [EntryTable.write_of_ne _ hij] at he)

end

end Sys2Proof.Machine
end

section
/-! SUPPORT. The law of the tracker as its parts (O59), how many entries each pool holds, and what an operation that
writes one entry must show to keep the law. -/

namespace Sys2Proof.Machine

/-! ### The pools -/

/-- How many entries of a table count against a pool (R40). -/
def poolCount (table : EntryTable) (p : Pool) : Nat :=
  (List.finRange 64).countP fun j => (table j).any fun e => e.origin.pool = p

theorem State.occupancy_eq (s : State) (p : Pool) : s.occupancy p = poolCount s.entry p := rfl

/-- What one place of a list without repetitions counts for. -/
theorem countP_of_agree {α : Type} {f g : α → Bool} {i : α} (h : ∀ j, i ≠ j → f j = g j) {l : List α} (hl : l.Nodup)
    (hi : i ∈ l) : l.countP f + (g i).toNat = l.countP g + (f i).toNat := by
  induction l with
  | nil => simp at hi
  | cons k ks ih =>
    obtain ⟨hk, hks⟩ := List.nodup_cons.1 hl
    by_cases hik : i = k
    · subst k
      have rest : ks.countP f = ks.countP g :=
        List.countP_congr fun j hj => by rw [h j fun hij => hk (hij ▸ hj)]
      cases hf : f i <;> cases hg : g i <;> simp [hf, hg, rest]
    · have := ih hks ((List.mem_cons.1 hi).resolve_left hik)
      rw [List.countP_cons, List.countP_cons, h k hik]
      omega

/-- What one entry counts for against a pool. -/
def poolShare (x : Option Entry) (p : Pool) : Nat := (x.any fun e => e.origin.pool = p).toNat

/-- A pool with one entry of the table written. -/
theorem poolCount_write (table : EntryTable) (i : Fin 64) (x : Option Entry) (p : Pool) :
    poolCount (table.write i x) p + poolShare (table i) p = poolCount table p + poolShare x p := by
  have := countP_of_agree (i := i) (f := fun j => (table.write i x j).any fun e => decide (e.origin.pool = p))
    (g := fun j => (table j).any fun e => decide (e.origin.pool = p))
    (fun j hij => by rw [EntryTable.write_of_ne _ hij]) (List.nodup_finRange 64) (List.mem_finRange i)
  simpa [poolCount, poolShare] using this

/-- Of the copy pool's one entry: beside a COPY entry there is no other (R40). -/
theorem eq_of_copies {table : EntryTable} (h : poolCount table .copy ≤ 1) {i j : Fin 64} {e e' : Entry}
    (hi : table i = some e) (he : e.origin = .copy) (hj : table j = some e') (he' : e'.origin = .copy) : i = j := by
  by_contra hij
  have count := poolCount_write table i none .copy
  have empty : poolCount (table.write i none) .copy = 0 := by
    have share : poolShare (table i) .copy = 1 := by simp [poolShare, hi, he, Origin.pool]
    have share' : poolShare none .copy = 0 := rfl
    omega
  have := List.countP_eq_zero.1 empty j (List.mem_finRange j)
  simp [EntryTable.write_of_ne _ hij, hj, he', Origin.pool] at this

/-- The first index with a property, in ascending order. -/
theorem find?_finRange_eq_some {n : Nat} {p : Fin n → Bool} {i : Fin n} :
    (List.finRange n).find? p = some i ↔ p i = true ∧ ∀ j, j < i → p j = false := by
  have ascending := List.pairwise_lt_finRange n
  rw [List.find?_eq_some_iff_append]
  refine and_congr_right fun _ => ⟨?_, fun h => ?_⟩
  · rintro ⟨as, bs, hl, hfirst⟩ j hj
    rw [hl] at ascending
    have later := (List.pairwise_cons.1 (List.pairwise_append.1 ascending).2.1).1
    have : j ∈ as ++ i :: bs := hl ▸ List.mem_finRange j
    obtain hm | hm := List.mem_append.1 this
    · simpa using hfirst j hm
    · obtain rfl | hm := List.mem_cons.1 hm
      · exact absurd hj (lt_irrefl _)
      · exact absurd (later j hm) hj.asymm
  · obtain ⟨as, bs, hl⟩ := List.append_of_mem (List.mem_finRange i)
    refine ⟨as, bs, hl, fun j hj => ?_⟩
    rw [hl] at ascending
    simpa using h j ((List.pairwise_append.1 ascending).2.2 j hj i (by simp))

/-- R40, R41: a new entry takes the lowest index that no entry holds, if its pool has one free. -/
theorem State.slotFor_eq_some {s : State} {p : Pool} {i : Fin 64} : s.slotFor p = some i ↔
    s.occupancy p < p.ceiling ∧ s.entry i = none ∧ ∀ j, j < i → s.entry j ≠ none := by
  unfold State.slotFor
  split
  · rw [find?_finRange_eq_some]
    simp [*, ← Option.isSome_iff_ne_none]
  · simp [*]

/-! ### The law as its parts -/

/-- A copy entry that has not expired is the copy in progress (R139). -/
def CopySound (table : EntryTable) (job : Option CopyJob) : Prop :=
  ∀ i e, table i = some e → e.origin = .copy → e.phase ≠ .expired → some e.line = job.map (·.line)

theorem copy_line_iff {job : Option CopyJob} {l : LineNo} :
    (∃ j, job = some j ∧ j.line = l) ↔ some l = job.map (·.line) := by
  cases job <;> simp [eq_comm]

/-- The law of the tracker, part by part. -/
theorem State.trackerSound_iff {s : State} : s.TrackerSound ↔
    (∀ p, poolCount s.entry p ≤ p.ceiling) ∧ (∀ i e, s.entry i = some e → e.Sound)
      ∧ LineOrdersSound s.entry s.tracker.order ∧ WaitingSound s.entry s.memory.waiting s.memory.joined
      ∧ RecordsSound s.entry s.memory.records ∧ CopySound s.entry s.retirement.copy
      ∧ (s.memory.link = .down → (∀ i, s.entry i = none) ∧ s.patrol.fill = none) := by
  constructor
  · intro h
    exact ⟨h.pools, h.entry, ⟨h.orderNodup, h.order, h.owner⟩, ⟨h.waitingNodup, h.joined, h.waiting⟩,
      ⟨h.recordNodup, h.record, h.op⟩, fun i e he ho hp => copy_line_iff.1 (h.copy i e he ho hp),
      fun hd => ⟨h.down hd, h.fill hd⟩⟩
  · rintro ⟨pools, entry, orders, waiting, records, copy, down⟩
    exact ⟨pools, entry, orders.nodup, orders.mem, orders.owner, waiting.nodup, waiting.split, waiting.mem,
      records.nodup, records.mem, records.op, fun hd => (down hd).1,
      fun i e he ho hp => copy_line_iff.2 (copy i e he ho hp), fun hd => (down hd).2⟩

namespace State.TrackerSound
variable {s t : State} {i : Fin 64} {e : Entry} (hs : s.TrackerSound)
include hs

theorem orders : LineOrdersSound s.entry s.tracker.order := (trackerSound_iff.1 hs).2.2.1
theorem waitingOrder : WaitingSound s.entry s.memory.waiting s.memory.joined := (trackerSound_iff.1 hs).2.2.2.1
theorem records : RecordsSound s.entry s.memory.records := (trackerSound_iff.1 hs).2.2.2.2.1
theorem copies : CopySound s.entry s.retirement.copy := (trackerSound_iff.1 hs).2.2.2.2.2.1

/-- An entry in the tracker shows that the memory link is UP (R73). -/
theorem up (he : s.entry i = some e) : s.memory.link = .up := by
  cases hl : s.memory.link with
  | up => rfl
  | down => simp [hs.down hl i] at he

end State.TrackerSound

/-! ### Operations that leave the tracker alone -/

/-- `t` has the tracker of `s`, and of the other blocks what the law of the tracker speaks of. -/
structure State.SameTracker (s t : State) : Prop where
  tracker : t.tracker = s.tracker
  link : t.memory.link = s.memory.link
  waiting : t.memory.waiting = s.memory.waiting
  joined : t.memory.joined = s.memory.joined
  records : t.memory.records = s.memory.records
  copy : t.retirement.copy.map (·.line) = s.retirement.copy.map (·.line)
  fill : s.memory.link = .down → s.patrol.fill = none → t.patrol.fill = none

theorem State.entry_of_tracker {s t : State} (h : t.tracker = s.tracker) : t.entry = s.entry := by
  funext i
  rw [State.entry, State.entry, h]

theorem State.SameTracker.sound {s t : State} (h : s.SameTracker t) (hs : s.TrackerSound) : t.TrackerSound := by
  obtain ⟨pools, entry, orders, waiting, records, copy, down⟩ := State.trackerSound_iff.1 hs
  have table := State.entry_of_tracker h.tracker
  refine State.trackerSound_iff.2 ⟨table ▸ pools, table ▸ entry, ?_, ?_, ?_, ?_, ?_⟩
  · rwa [table, h.tracker]
  · rwa [table, h.waiting, h.joined]
  · rwa [table, h.records]
  · intro i e he ho hp
    rw [h.copy]
    exact copy i e (table ▸ he) ho hp
  · rw [h.link, table]
    exact fun hd => ⟨(down hd).1, h.fill hd (down hd).2⟩

/-- An operation that leaves the memory port alone, and of the other blocks what the law of the tracker speaks of. -/
theorem State.TrackerSound.same {s t : State} (hs : s.TrackerSound) (hm : t.memory = s.memory)
    (h : t.tracker = s.tracker ∧ t.retirement.copy.map (·.line) = s.retirement.copy.map (·.line)
      ∧ (s.patrol.fill = none → t.patrol.fill = none)) : t.TrackerSound :=
  State.SameTracker.sound ⟨h.1, by rw [hm], by rw [hm], by rw [hm], by rw [hm], h.2.1, fun _ => h.2.2⟩ hs

/-! ### Operations that write one entry -/

/-- `t` is `s` with entry `i` written, in what the law of the tracker asks of the table. -/
structure State.Writes (i : Fin 64) (x : Option Entry) (s t : State) : Prop where
  entries : t.tracker.entries = s.tracker.entries.set i.val x
  link : t.memory.link = s.memory.link
  fill : s.patrol.fill = none → t.patrol.fill = none

theorem State.Writes.table {i : Fin 64} {x : Option Entry} {s t : State} (h : s.Writes i x t) :
    t.entry = EntryTable.write s.entry i x := by
  funext j
  simp only [State.entry, EntryTable.write, h.entries, Vector.getElem_set, Fin.val_inj]

/-- What is to show of an operation that writes entry `i`: an entry that was not there has a free place in its pool and
an UP link, and each order is as its part of the law asks. -/
theorem State.Writes.sound {i : Fin 64} {x : Option Entry} {s t : State} (h : s.Writes i x t) (hs : s.TrackerSound)
    (room : ∀ e, x = some e → (∃ e₀, s.entry i = some e₀ ∧ e₀.origin.pool = e.origin.pool)
      ∨ (s.entry i = none ∧ s.occupancy e.origin.pool < e.origin.pool.ceiling ∧ s.memory.link = .up))
    (sound : ∀ e, x = some e → e.Sound) (orders : LineOrdersSound (EntryTable.write s.entry i x) t.tracker.order)
    (waiting : WaitingSound (EntryTable.write s.entry i x) t.memory.waiting t.memory.joined)
    (records : RecordsSound (EntryTable.write s.entry i x) t.memory.records)
    (copy : CopySound (EntryTable.write s.entry i x) t.retirement.copy) : t.TrackerSound := by
  obtain ⟨pools, entry, -, -, -, -, down⟩ := State.trackerSound_iff.1 hs
  refine State.trackerSound_iff.2 ⟨fun p => ?_, fun j e he => ?_, ?_, ?_, ?_, ?_, fun hd => ?_⟩
  · have count := poolCount_write s.entry i x p
    rw [h.table]
    have kept := pools p
    cases hx : x with
    | none =>
      have share : poolShare none p = 0 := rfl
      rw [hx] at count
      omega
    | some e =>
      rw [hx] at count
      by_cases hp : e.origin.pool = p
      · have share : poolShare (some e) p = 1 := by simp [poolShare, hp]
        obtain ⟨e₀, he₀, hp₀⟩ | ⟨-, hr, -⟩ := room e hx
        · have share₀ : poolShare (s.entry i) p = 1 := by simp [poolShare, he₀, hp₀, hp]
          omega
        · rw [hp, State.occupancy_eq] at hr
          omega
      · have share : poolShare (some e) p = 0 := by simp [poolShare, hp]
        omega
  · rw [h.table] at he
    by_cases hij : i = j
    · subst j
      exact sound e (by simpa using he)
    · exact entry j e (by rwa [EntryTable.write_of_ne _ hij] at he)
  · rwa [h.table]
  · rwa [h.table]
  · rwa [h.table]
  · rwa [h.table]
  · rw [h.link] at hd
    obtain ⟨empty, noFill⟩ := down hd
    refine ⟨fun j => ?_, h.fill noFill⟩
    have gone : x = none := by
      cases hx : x with
      | none => rfl
      | some e =>
        obtain ⟨e₀, he₀, -⟩ | ⟨-, -, up⟩ := room e hx
        · simp [empty i] at he₀
        · simp [up] at hd
    rw [h.table, gone]
    by_cases hij : i = j
    · subst j
      simp
    · rw [EntryTable.write_of_ne _ hij, empty]

/-- The copy in progress stays that of its entry when an entry is written that is no new copy. -/
theorem CopySound.write {table : EntryTable} {job job' : Option CopyJob} (h : CopySound table job) {i : Fin 64}
    {x : Option Entry} (hj : job'.map (·.line) = job.map (·.line))
    (hx : ∀ e, x = some e → e.origin = .copy → e.phase ≠ .expired → some e.line = job.map (·.line)) :
    CopySound (table.write i x) job' := by
  intro j e he ho hp
  rw [hj]
  by_cases hij : i = j
  · subst j
    exact hx e (by simpa using he) ho hp
  · exact h j e (by rwa [EntryTable.write_of_ne _ hij] at he) ho hp

/-- The end of the copy: its entry, the only one, has left the table or has expired. -/
theorem CopySound.finish {table : EntryTable} (hc : poolCount table .copy ≤ 1) {i : Fin 64} {e : Entry}
    (hi : table i = some e) (he : e.origin = .copy) {x : Option Entry} (hx : ∀ e, x = some e → e.phase = .expired)
    (job : Option CopyJob) : CopySound (table.write i x) job := by
  intro j e' he' ho hp
  by_cases hij : i = j
  · subst j
    exact absurd (hx e' (by simpa using he')) hp
  · rw [EntryTable.write_of_ne _ hij] at he'
    exact absurd (eq_of_copies hc hi he he' ho) hij

end Sys2Proof.Machine
end

section
/-! SUPPORT. The operations on one entry of the tracker keep its law (O59): an entry is created, becomes owner, is issued,
waits again, expires or leaves. -/

namespace Sys2Proof.Machine

/-! ### What the shared operations write -/

@[simp] theorem State.prepareMap_copy (job : CopyJob) (s : State) :
    (s.prepareMap job).retirement.copy = s.retirement.copy := by
  unfold State.prepareMap; split <;> rfl

/-- The entry of an owner: its line resolved, waiting for its issue (R45, R48). -/
def State.owned (s : State) (e : Entry) : Entry := { e with physical := some (s.resolve e.line), phase := .waitingIssue }

/-- R45: what becoming owner writes in the tracker and in the memory port. -/
theorem State.becomeOwner_effect {s : State} {i : Fin 64} {e : Entry} (he : s.entry i = some e) :
    (s.becomeOwner i).tracker = { s.tracker with entries := s.tracker.entries.set i.val (some (s.owned e)) }
      ∧ (s.becomeOwner i).memory = s.memory.join i ∧ (s.becomeOwner i).retirement.copy = s.retirement.copy := by
  simp only [State.becomeOwner, he]
  split <;> simp [State.owned]

/-- R75: freeing the credit of an entry that holds none changes nothing. -/
theorem State.TrackerSound.freeCredit_self {s : State} (hs : s.TrackerSound) {i : Fin 64}
    (h : ∀ e, s.entry i = some e → e.phase.holdsCredit = false) : s.freeCredit i = s := by
  have kept : s.memory.records.filter (fun r => r.tag ≠ i) = s.memory.records :=
    List.filter_eq_self.2 fun r hr => by
      refine decide_eq_true fun ht => ?_
      obtain ⟨e, he, hc⟩ := (hs.record r.tag).1 (List.mem_map_of_mem hr)
      simp [h e (ht ▸ he)] at hc
  simp only [State.freeCredit, kept]

/-- Leaving the waiting order changes nothing for an entry that is not in WAITING_ISSUE. -/
theorem State.TrackerSound.waiting_filter_self {s : State} (hs : s.TrackerSound) {i : Fin 64}
    (h : ∀ e, s.entry i = some e → e.phase ≠ .waitingIssue) :
    s.memory.waiting.filter (· ≠ i) = s.memory.waiting :=
  List.filter_eq_self.2 fun j hj => by
    refine decide_eq_true fun hji => ?_
    obtain ⟨e, he, hw⟩ := (hs.waiting j).1 hj
    exact h e (hji ▸ he) hw

/-! ### An entry leaves the tracker -/

/-- `t` is `s` after the entry at index `i` has given up its credit, if any, and its index, and with it the copy if it
was that of the copy in progress. -/
structure State.Finishes (i : Fin 64) (s t : State) : Prop where
  tracker : t.tracker = (s.release i).tracker
  memory : t.memory = ((s.freeCredit i).release i).memory
  fill : s.patrol.fill = none → t.patrol.fill = none
  copy : t.retirement.copy.map (·.line) = s.retirement.copy.map (·.line)
    ∨ ∃ e, s.entry i = some e ∧ e.origin = .copy

theorem State.Finishes.sound {i : Fin 64} {s t : State} (h : s.Finishes i t) (hs : s.TrackerSound) : t.TrackerSound := by
  have writes : s.Writes i none t := ⟨by rw [h.tracker]; rfl, by rw [h.memory]; rfl, h.fill⟩
  refine writes.sound hs (by simp) (by simp) ?_ ?_ ?_ ?_
  · rw [h.tracker]
    exact hs.orders.remove (by simp)
  · rw [h.memory]
    exact hs.waitingOrder.leave (by simp)
  · rw [h.memory]
    exact hs.records.free (by simp)
  · obtain hc | ⟨e, he, hc⟩ := h.copy
    · exact hs.copies.write hc (by simp)
    · exact CopySound.finish (hs.pools .copy) he hc (by simp) _

/-- An entry that holds no credit is released. -/
theorem State.TrackerSound.release {s : State} (hs : s.TrackerSound) {i : Fin 64} {e : Entry}
    (he : s.entry i = some e) (hp : e.phase.holdsCredit = false) : (s.release i).TrackerSound := by
  have freed := hs.freeCredit_self (i := i) (by simpa [he] using hp)
  exact State.Finishes.sound ⟨rfl, by rw [freed], id, .inl rfl⟩ hs

/-! ### An entry waits for its issue -/

/-- `t` is `s` after the entry at index `i` has given up its credit, if any, and gone to WAITING_ISSUE as `e'`. -/
structure State.Rejoins (i : Fin 64) (e' : Entry) (s t : State) : Prop where
  tracker : t.tracker = { s.tracker with entries := s.tracker.entries.set i.val (some e') }
  memory : t.memory = (s.freeCredit i).memory.join i
  fill : s.patrol.fill = none → t.patrol.fill = none
  copy : t.retirement.copy.map (·.line) = s.retirement.copy.map (·.line)

/-- R45, R61, R93, R145: the head of a line order goes to WAITING_ISSUE, as owner or for its write phase. -/
theorem State.Rejoins.sound {i : Fin 64} {e e' : Entry} {s t : State} (h : s.Rejoins i e' t) (hs : s.TrackerSound)
    (he : s.entry i = some e) (same : e'.origin = e.origin ∧ e'.line = e.line) (hp : e'.phase = .waitingIssue)
    (hold : e.phase ≠ .waitingIssue ∧ e.phase ≠ .expired) (hh : (s.lineOrder e.line).head? = some i)
    (hw : e'.writing = e.writing ∨ e'.writing = true) : t.TrackerSound := by
  have writes : s.Writes i (some e') t := ⟨by rw [h.tracker], by rw [h.memory]; rfl, h.fill⟩
  obtain ⟨origin, line⟩ := same
  refine writes.sound hs ?_ ?_ ?_ ?_ ?_ ?_
  · rintro _ ⟨rfl⟩
    exact .inl ⟨e, he, by rw [origin]⟩
  · rintro _ ⟨rfl⟩
    have old := hs.entry i e he
    refine ⟨by simp [hp], by simp [hp], fun t ho hk => ?_, fun ho => ?_⟩
    · exact hw.elim (fun hw => hw.trans (old.write t (origin ▸ ho) hk)) id
    · exact hw.elim (fun hw => hw.trans (old.fill (origin ▸ ho))) id
  · rw [h.tracker]
    exact hs.orders.replace he line hold.2 (by simp [hp]) fun _ => hh
  · rw [h.memory]
    exact hs.waitingOrder.join (by simpa [he] using hold.1) hp
  · rw [h.memory]
    exact hs.records.free (by simp [hp])
  · refine hs.copies.write h.copy ?_
    rintro _ ⟨rfl⟩ ho -
    rw [line]
    exact hs.copies i e he (origin ▸ ho) hold.2

/-- R45: the entry at the head of its line order becomes owner. -/
theorem State.TrackerSound.becomeOwner {s : State} (hs : s.TrackerSound) {i : Fin 64} {e : Entry}
    (he : s.entry i = some e) (hp : e.phase = .waitingLine) (hh : (s.lineOrder e.line).head? = some i) :
    (s.becomeOwner i).TrackerSound := by
  obtain ⟨tracker, memory, copy⟩ := State.becomeOwner_effect he
  have freed := hs.freeCredit_self (i := i) (by simp [he, hp])
  have rejoins : s.Rejoins i (s.owned e) (s.becomeOwner i) := ⟨tracker, by rw [memory, freed], by simp, by rw [copy]⟩
  exact rejoins.sound hs he ⟨rfl, rfl⟩ rfl (by simp [hp]) hh (.inl rfl)

/-! ### An entry is created -/

/-- The tracker with a new entry at the end of its line order, before it may become owner (R44). -/
def State.append (i : Fin 64) (e : Entry) (s : State) : State :=
  { s with tracker :=
      { entries := s.tracker.entries.set i.val (some { e with phase := .waitingLine }), order := s.tracker.order ++ [i] } }

theorem State.create_eq (i : Fin 64) (e : Entry) (s : State) :
    s.create i e = if s.lineOrder e.line = [] then (s.append i e).becomeOwner i else s.append i e := rfl

theorem State.entry_append (i j : Fin 64) (e : Entry) (s : State) :
    (s.append i e).entry j = if i = j then some { e with phase := .waitingLine } else s.entry j := by
  simp only [State.entry, State.append, Vector.getElem_set, Fin.val_inj]

theorem State.TrackerSound.append {s : State} (hs : s.TrackerSound) {i : Fin 64} {e : Entry}
    (slot : s.slotFor e.origin.pool = some i) (up : s.memory.link = .up)
    (sound : Entry.Sound { e with phase := .waitingLine })
    (copy : e.origin = .copy → some e.line = s.retirement.copy.map (·.line)) : (s.append i e).TrackerSound := by
  obtain ⟨room, free, -⟩ := State.slotFor_eq_some.1 slot
  have writes : s.Writes i (some { e with phase := .waitingLine }) (s.append i e) := ⟨rfl, rfl, id⟩
  refine writes.sound hs ?_ ?_ (hs.orders.insert free rfl) (hs.waitingOrder.stay ?_) (hs.records.stay ?_ ?_)
    (hs.copies.write rfl ?_)
  · rintro _ ⟨rfl⟩
    exact .inr ⟨free, room, up⟩
  · rintro _ ⟨rfl⟩
    exact sound
  · simp [free]
  · simp [free]
  · simp
  · rintro _ ⟨rfl⟩ ho -
    exact copy ho

/-- The line order of a new entry's line ends with it (R44). -/
theorem State.lineOrder_append {s : State} (hs : s.TrackerSound) {i : Fin 64} (free : s.entry i = none) (e : Entry)
    (l : LineNo) :
    (s.append i e).lineOrder l = s.lineOrder l ++ if e.line = l then [i] else [] := by
  have absent : i ∉ s.tracker.order := fun hm => by
    obtain ⟨_, he, -⟩ := (hs.order i).1 hm
    simp [free] at he
  have old : lineOrderOf (s.append i e).entry s.tracker.order l = lineOrderOf s.entry s.tracker.order l :=
    lineOrderOf_congr (fun j hj => by
      rw [State.entry_append, if_neg fun hij : i = j => absent (hij ▸ hj)]) l
  have split : (s.append i e).lineOrder l
      = lineOrderOf (s.append i e).entry s.tracker.order l ++ lineOrderOf (s.append i e).entry [i] l :=
    List.filter_append ..
  rw [split, old, State.lineOrder_eq]
  by_cases hl : e.line = l <;> simp [lineOrderOf, State.entry_append, hl]

/-- R40, R44: a new entry takes a free index of its pool while the memory link is UP. -/
theorem State.TrackerSound.create {s : State} (hs : s.TrackerSound) {i : Fin 64} {e : Entry}
    (slot : s.slotFor e.origin.pool = some i) (up : s.memory.link = .up)
    (sound : Entry.Sound { e with phase := .waitingLine })
    (copy : e.origin = .copy → some e.line = s.retirement.copy.map (·.line)) : (s.create i e).TrackerSound := by
  have appended := hs.append slot up sound copy
  rw [State.create_eq]
  split
  · rename_i alone
    have head : ((s.append i e).lineOrder e.line).head? = some i := by
      simp [State.lineOrder_append hs (State.slotFor_eq_some.1 slot).2.1, alone]
    exact appended.becomeOwner (e := { e with phase := .waitingLine }) (by simp [State.entry_append]) rfl head
  · exact appended

/-! ### An entry is issued, and expires -/

/-- R77: the operation of an entry in WAITING_ISSUE is issued. -/
theorem State.TrackerSound.issue {s : State} (hs : s.TrackerSound) {i : Fin 64} {e : Entry} (he : s.entry i = some e)
    (hp : e.phase = .waitingIssue) : (s.issue i e).TrackerSound := by
  have old := hs.entry i e he
  have credit : (if e.writing then Phase.awaitingDone else .awaitingData).holdsCredit = true := by
    split <;> rfl
  have writes : s.Writes i (some { e with phase := if e.writing then .awaitingDone else .awaitingData })
    (s.issue i e) := ⟨rfl, rfl, id⟩
  refine writes.sound hs ?_ ?_ (hs.orders.replace he rfl (by simp [hp]) ?_ fun _ => ?_) (hs.waitingOrder.leave ?_)
    (hs.records.issue ?_ credit rfl rfl) (hs.copies.write rfl ?_)
  · rintro _ ⟨rfl⟩
    exact .inl ⟨e, he, rfl⟩
  · rintro _ ⟨rfl⟩
    refine ⟨?_, ?_, old.write, old.fill⟩ <;> cases e.writing <;> simp
  · cases e.writing <;> simp
  · exact hs.owner i e he (by simp [hp]) (by simp [hp])
  · rintro _ ⟨rfl⟩
    cases e.writing <;> simp
  · simp [he, hp]
  · rintro _ ⟨rfl⟩ ho -
    exact hs.copies i e he ho (by simp [hp])

/-- `t` is `s` after the operation of entry `e` at index `i` has timed out (R84): the copy, if it was its own, is over. -/
structure State.Expires (i : Fin 64) (e : Entry) (s t : State) : Prop where
  tracker : t.tracker =
    { entries := s.tracker.entries.set i.val (some { e with phase := .expired }), order := s.tracker.order.filter (· ≠ i) }
  memory : t.memory = s.memory
  fill : s.patrol.fill = none → t.patrol.fill = none
  copy : t.retirement.copy.map (·.line) = s.retirement.copy.map (·.line) ∨ e.origin = .copy

theorem State.Expires.sound {i : Fin 64} {e : Entry} {s t : State} (h : s.Expires i e t) (hs : s.TrackerSound)
    (he : s.entry i = some e) (hp : e.phase = .awaitingData ∨ e.phase = .awaitingDone) : t.TrackerSound := by
  have old := hs.entry i e he
  have credit : e.phase.holdsCredit = true := by obtain hp | hp := hp <;> simp [hp]
  have notWaiting : e.phase ≠ .waitingIssue := by obtain hp | hp := hp <;> simp [hp]
  have writes : s.Writes i (some { e with phase := .expired }) t := ⟨by rw [h.tracker], by rw [h.memory], h.fill⟩
  refine writes.sound hs ?_ ?_ ?_ ?_ ?_ ?_
  · rintro _ ⟨rfl⟩
    exact .inl ⟨e, he, rfl⟩
  · rintro _ ⟨rfl⟩
    exact ⟨by simp, by simp, old.write, old.fill⟩
  · rw [h.tracker]
    exact hs.orders.remove (by simp)
  · rw [h.memory]
    exact hs.waitingOrder.stay (by simp [he, notWaiting])
  · rw [h.memory]
    refine hs.records.stay (by simp [he, credit]) ?_
    rintro _ ⟨rfl⟩ -
    exact ⟨e, he, rfl⟩
  · obtain hc | hc := h.copy
    · exact hs.copies.write hc (by simp)
    · exact CopySound.finish (hs.pools .copy) he hc (by simp) _

/-! ### An entry is marked abandoned -/

theorem Entry.abandon_same (e : Entry) : e.abandon.line = e.line ∧ e.abandon.phase = e.phase
    ∧ e.abandon.writing = e.writing ∧ e.abandon.origin.pool = e.origin.pool := by
  unfold Entry.abandon
  split <;> simp_all [Origin.pool]

theorem Entry.Sound.abandon {e : Entry} (h : e.Sound) : e.abandon.Sound := by
  obtain ⟨-, phase, writing, -⟩ := e.abandon_same
  refine ⟨by rw [phase, writing]; exact h.data, by rw [phase, writing]; exact h.done, fun t ho hk => ?_, fun ho => ?_⟩
  · rw [writing]
    unfold Entry.abandon at ho
    split at ho
    · rename_i k hk'
      obtain rfl : { k with abandoned := true } = t := by simpa using ho
      exact h.write k hk' hk
    all_goals simp_all
  · rw [writing]
    unfold Entry.abandon at ho
    split at ho <;> simp_all [h.fill]

/-- R65: an entry at the memory target is marked. -/
theorem State.TrackerSound.abandon {s : State} (hs : s.TrackerSound) {i : Fin 64} {e : Entry} (he : s.entry i = some e)
    (hp : e.phase = .awaitingData ∨ e.phase = .awaitingDone) : (s.setEntry i (some e.abandon)).TrackerSound := by
  obtain ⟨line, phase, writing, pool⟩ := e.abandon_same
  have writes : s.Writes i (some e.abandon) (s.setEntry i (some e.abandon)) := ⟨rfl, rfl, id⟩
  have waits : e.phase ≠ .expired ∧ e.phase ≠ .waitingLine := by obtain hp | hp := hp <;> simp [hp]
  refine writes.sound hs ?_ ?_ (hs.orders.replace he line waits.1 (phase ▸ waits.1) fun _ => ?_)
    (hs.waitingOrder.stay ?_) (hs.records.stay ?_ ?_) (hs.copies.write rfl ?_)
  · rintro _ ⟨rfl⟩
    exact .inl ⟨e, he, pool.symm⟩
  · rintro _ ⟨rfl⟩
    exact (hs.entry i e he).abandon
  · exact hs.owner i e he waits.2 waits.1
  · simp [he, phase]
  · simp [he, phase]
  · rintro _ ⟨rfl⟩ -
    exact ⟨e, he, by rw [Entry.op, Entry.op, writing]⟩
  · rintro _ ⟨rfl⟩ ho -
    have origin : e.origin = .copy := by
      cases h : e.origin <;> simp_all [Entry.abandon]
    rw [line]
    exact hs.copies i e he origin waits.1

end Sys2Proof.Machine
end

section
/-! SUPPORT. The steps of the bridge's own, the scan slots and the resets keep the law of the tracker (O59). -/

namespace Sys2Proof.Machine

/-! ### The copy in progress -/

@[simp] theorem State.setSpare_copy (i : Nat) (x : SpareState) (s : State) :
    (s.setSpare i x).retirement.copy = s.retirement.copy := by
  unfold State.setSpare; split <;> rfl

@[simp] theorem State.enqueueRetire_copy (l : LineNo) (o : RetireOrigin) (i : Nat) (s : State) :
    (s.enqueueRetire l o i).retirement.copy = s.retirement.copy := by simp [State.enqueueRetire]

@[simp] theorem State.failQueued_copy (s : State) (q : RetireEntry) :
    (s.failQueued q).retirement.copy = s.retirement.copy := by simp [State.failQueued]

@[simp] theorem State.clipSpares_copy (n : Nat) (s : State) :
    (s.clipSpares n).retirement.copy = s.retirement.copy := by
  unfold State.clipSpares
  (repeat' split) <;> simp [foldl_frame State.failQueued (·.retirement.copy) (by simp)]

@[simp] theorem State.autoAnswer_copy (i : Fin 128) (e : HistoryEntry) (a : RetireAnswer) (s : State) :
    (s.autoAnswer i e a).retirement.copy = s.retirement.copy := by
  cases a <;> simp [State.autoAnswer]

@[simp] theorem State.thresholdTest_copy (i : Fin 128) (s : State) :
    (s.thresholdTest i).retirement.copy = s.retirement.copy := by
  unfold State.thresholdTest; (repeat' split) <;> simp

@[simp] theorem State.reportWriteBack_copy (l : LineNo) (r : Fin 32) (p : Fin 72) (o : WriteBackOrigin) (s : State) :
    (s.reportWriteBack l r p o).retirement.copy = s.retirement.copy := by
  unfold State.reportWriteBack; (repeat' split) <;> simp

@[simp] theorem State.reportMerge_copy (e : Entry) (s : State) :
    (s.reportMerge e).retirement.copy = s.retirement.copy := by
  unfold State.reportMerge; (repeat' split) <;> simp

@[simp] theorem State.patrolWritten_copy (i : Fin 64) (e : Entry) (s : State) :
    (s.patrolWritten i e).retirement.copy = s.retirement.copy := by
  unfold State.patrolWritten
  dsimp only
  (repeat' split) <;> simp

/-! ### Ownership and the grant -/

theorem State.passable_iff {s : State} {i : Fin 64} : s.passable i = true ↔
    ∃ e, s.entry i = some e ∧ e.phase = .waitingLine ∧ (s.lineOrder e.line).head? = some i := by
  simp [State.passable, Option.any_eq_true]

/-- R76: the arbiter chooses an entry that waits. -/
theorem State.granted_waits {s : State} {i : Fin 64} (h : s.granted = some i) : i ∈ s.memory.waiting := by
  unfold State.granted at h
  split at h
  · cases h
    exact List.mem_of_find?_eq_some ‹_›
  · exact List.mem_of_head? h

namespace State.TrackerSound
variable {s : State} (hs : s.TrackerSound)
include hs

theorem ownershipPass : s.ownershipPass.TrackerSound := by
  unfold State.ownershipPass
  split
  · rename_i i hi
    obtain ⟨e, he, hp, hh⟩ := State.passable_iff.1 (List.find?_some hi)
    exact hs.becomeOwner he hp hh
  · exact hs

theorem issueGrant : s.issueGrant.TrackerSound := by
  unfold State.issueGrant
  split
  · split
    · rename_i i hg
      split
      · rename_i e he
        obtain ⟨e', he', hp⟩ := (hs.waiting i).1 (State.granted_waits hg)
        obtain rfl : e = e' := Option.some.inj (he.symm.trans he')
        exact hs.issue he hp
      · rename_i he
        rwa [hs.waiting_filter_self (i := i) (by simp [he])]
    · exact hs
  · exact hs

/-! ### Scans, repairs and the fill -/

theorem createPatrol {i : Fin 64} {e : Entry} (ho : e.origin = .scan ∨ e.origin = .repair ∨ e.origin = .fill)
    (hw : e.origin = .fill → e.writing = true) (slot : s.slotFor .patrol = some i) (up : s.memory.link = .up) :
    (s.create i e).TrackerSound := by
  refine hs.create ?_ up ⟨by simp, by simp, ?_, hw⟩ ?_
  · obtain ho | ho | ho := ho <;> simpa [ho, Origin.pool] using slot
  · obtain ho | ho | ho := ho <;> simp [ho]
  · obtain ho | ho | ho := ho <;> simp [ho]

theorem repairService : s.repairService.TrackerSound := by
  unfold State.repairService
  split
  · rename_i l rest slot _ hslot up
    have taken : State.TrackerSound { s with patrol := { s.patrol with repairQueue := rest } } :=
      hs.same rfl ⟨rfl, rfl, id⟩
    dsimp only
    split
    · exact taken.createPatrol (.inr (.inl rfl)) (by simp [repairEntry]) hslot up
    · exact taken
  · exact hs

theorem offerRepair (l : LineNo) : (s.offerRepair l).TrackerSound :=
  hs.same (by simp) (by simp)

omit hs in
theorem serveRepairsFor (n : Nat) {s : State} (hs : s.TrackerSound) : (s.serveRepairsFor n).TrackerSound := by
  induction n generalizing s with
  | zero => exact hs
  | succ n ih =>
    unfold State.serveRepairsFor
    split
    · exact ih hs.repairService
    · exact hs

theorem offerAndServe (l : LineNo) : (s.offerAndServe l).TrackerSound := serveRepairsFor _ (hs.offerRepair l)

omit hs in
theorem fillSome (n : Nat) {s : State} (hs : s.TrackerSound) : (s.fillSome n).TrackerSound := by
  induction n generalizing s with
  | zero => exact hs
  | succ n ih =>
    unfold State.fillSome
    split
    · rename_i i f l hr
      have hf := State.fillReady_fill hr
      have up : s.memory.link = .up := by
        cases hl : s.memory.link with
        | up => rfl
        | down => simp [hs.fill hl] at hf
      have slot : s.slotFor .patrol = some i := by
        unfold State.fillReady at hr
        (repeat' split at hr) <;> simp_all
      refine ih ?_
      have moved (g : Fill) : (s.setFill (some g)).TrackerSound :=
        hs.same rfl ⟨rfl, rfl, by simp [hf]⟩
      exact (moved _).createPatrol (.inr (.inr rfl)) (fun _ => rfl) slot up
    · exact hs

theorem fillIssue : s.fillIssue.TrackerSound := by
  unfold State.fillIssue
  split
  · exact hs
  · exact fillSome _ hs

omit hs in
theorem scanBurst (k : Fin 32) (n : Nat) {s : State} (hs : s.TrackerSound) (up : s.memory.link = .up) :
    (s.scanBurst k n).TrackerSound := by
  induction n generalizing s with
  | zero => exact hs
  | succ n ih =>
    unfold State.scanBurst
    split
    · rename_i r slot hr hslot
      have created (l : LineNo) : (s.create slot (scanEntry k l)).TrackerSound :=
        hs.createPatrol (.inl rfl) (by simp [scanEntry]) hslot up
      have modified (l : LineNo) (f : Region → Region) :
          ((s.create slot (scanEntry k l)).modifyRegion k f).TrackerSound :=
        (created l).same (by simp) (by simp)
      dsimp only
      (repeat' split)
      · exact (modified r.cursor fun r => { r with cursor := r.base, passes := r.passes + 1 }).same rfl ⟨rfl, rfl, id⟩
      · exact modified _ _
      · exact ih (modified _ _) (by simpa using up)
    · exact hs

theorem slotExpiry : s.slotExpiry.TrackerSound := by
  have next : s.nextSlot.TrackerSound := hs.same rfl ⟨rfl, rfl, id⟩
  unfold State.slotExpiry State.serveSlot
  (repeat' split)
  · exact next
  · rename_i ho _ k _
    have up : s.memory.link = .up := by
      simp only [State.slotOpen, Bool.and_eq_true, decide_eq_true_eq] at ho
      exact ho.1.1.2
    exact scanBurst k _ (next.same rfl ⟨rfl, rfl, id⟩) up
  · exact next
  · exact hs

/-! ### Acceptance and the copy's start -/

theorem copyStart : s.copyStart.TrackerSound := by
  unfold State.copyStart
  split
  · rename_i i q rest slot up _
    have noCopy : poolCount s.entry .copy = 0 := by
      have : s.occupancy .copy < 1 := (State.slotFor_eq_some.1 slot).1
      rw [State.occupancy_eq] at this
      omega
    obtain ⟨pools, entry, orders, waiting, records, -, down⟩ := State.trackerSound_iff.1 hs
    have vacuous (job : Option CopyJob) : CopySound s.entry job := fun j e he ho _ => by
      have := List.countP_eq_zero.1 noCopy j (List.mem_finRange j)
      simp [he, ho, Origin.pool] at this
    have started : State.TrackerSound
        { s with retirement :=
            { s.retirement with queue := rest
                                copy := some { line := q.line, origin := q.origin, spare := q.spare, void := false } } } :=
      State.trackerSound_iff.2 ⟨pools, entry, orders, waiting, records, vacuous _, down⟩
    exact started.create slot up ⟨by simp, by simp, by simp, by simp⟩ fun _ => rfl
  · exact hs

theorem decideRequest (q : Request) {i : Fin 64} (slot : s.slotFor .requester = some i) :
    (s.decideRequest q i).TrackerSound := by
  unfold State.decideRequest
  (repeat' split)
  case h_5 hl _ _ g mode _ =>
    have up : s.memory.link = .up := by
      cases h : s.memory.link with
      | up => rfl
      | down => exact absurd h hl
    refine hs.create slot up ⟨by simp, by simp, ?_, by simp [Request.entry]⟩ (by simp [Request.entry])
    rintro _ ⟨rfl⟩ hk
    simpa [Request.entry] using hk
  all_goals exact hs.same (by simp) (by simp)

theorem acceptance : s.acceptance.TrackerSound := by
  unfold State.acceptance
  split
  · rename_i q rest i _ slot
    have taken : (s.takeRequest rest).TrackerSound := hs.same rfl ⟨rfl, rfl, id⟩
    exact (taken.decideRequest q slot).same (by simp) (by simp)
  · exact hs

/-! ### The fall of the requester link -/

theorem resetEntry (i : Fin 64) : (s.resetEntry i).TrackerSound := by
  unfold State.resetEntry
  split
  · exact hs
  · rename_i e he
    split
    · rename_i ends
      simp only [Entry.endsAtReset, Bool.and_eq_true, Bool.or_eq_true, decide_eq_true_eq] at ends
      refine hs.release he ?_
      obtain hp | hp := ends.2 <;> simp [hp]
    · split
      · rename_i marks
        simp only [Entry.abandonsAtReset, Bool.and_eq_true, Bool.or_eq_true, decide_eq_true_eq] at marks
        exact hs.abandon he marks.2
      · exact hs

omit hs in
/-- A fold of operations that keep the law keeps it. -/
theorem foldl {α : Type} {f : State → α → State} (h : ∀ (t : State) (x : α), t.TrackerSound → (f t x).TrackerSound)
    (l : List α) {s : State} (hs : s.TrackerSound) : (l.foldl f s).TrackerSound := by
  induction l generalizing s with
  | nil => exact hs
  | cons x xs ih => exact ih (h s x hs)

theorem requesterFall (w : Reason) : (s.requesterFall w).TrackerSound := by
  unfold State.requesterFall
  split
  · exact hs
  · have fallen : State.TrackerSound { s with port := s.port.fall } :=
      hs.same rfl ⟨rfl, rfl, id⟩
    have reset : State.TrackerSound (State.resetRequesters { s with port := s.port.fall }) :=
      foldl (fun t l ht => ht.offerAndServe l) _ (foldl (fun t i ht => ht.resetEntry i) _ fallen)
    exact reset.same rfl ⟨rfl, rfl, id⟩

theorem violation (w : Reason) : (s.violation w).TrackerSound := by
  unfold State.violation
  split
  · exact hs
  · have raised : (s.raise { kind := .protocolError, reason := some w }).TrackerSound := hs.same rfl ⟨rfl, rfl, id⟩
    exact raised.requesterFall _

theorem requestArrives (q : Request) : (s.requestArrives q).TrackerSound := by
  unfold State.requestArrives
  (repeat' split)
  · exact hs
  · exact hs.same rfl ⟨rfl, rfl, id⟩
  · exact hs.violation _

theorem commandArrives (c : Command) : (s.commandArrives c).TrackerSound := by
  unfold State.commandArrives
  (repeat' split)
  · exact hs
  · exact hs.same rfl ⟨rfl, rfl, id⟩
  · exact hs.violation _

theorem requesterHello : s.requesterHello.TrackerSound :=
  hs.same (by simp) (by simp)

theorem requesterBad (k : Byte) (n : Nat) : (s.requesterBad k n).TrackerSound := by
  unfold State.requesterBad
  split
  · split
    · exact hs.requesterHello
    · exact hs
  · split
    · exact hs
    · exact hs.violation _

end State.TrackerSound

end Sys2Proof.Machine
end

section
/-! SUPPORT. The tracker stays in order (O59): completions, timeouts, the rise and the loss of the memory link, and the
management commands keep its law, and with the operations before them every step does. -/

namespace Sys2Proof.Machine

/-! ### The fill that is not active -/

@[simp] theorem State.fillAcknowledged_of_none {s : State} (h : s.patrol.fill = none) (l : LineNo) :
    s.fillAcknowledged l = s := by
  simp [State.fillAcknowledged, h]

@[simp] theorem State.fillWriteFailed_of_none {s : State} (h : s.patrol.fill = none) (l p : LineNo) (w : FillFailure) :
    s.fillWriteFailed l p w = s := by
  simp [State.fillWriteFailed, h]

/-- A failing entry that is no copy leaves the copy in progress alone. -/
theorem State.originFails_copy {e : Entry} (h : e.origin ≠ .copy) (w : FillFailure) (s : State) :
    (s.originFails e w).retirement.copy = s.retirement.copy := by
  unfold State.originFails
  split <;> simp_all

theorem State.originFails_noFill {s : State} (h : s.patrol.fill = none) (e : Entry) (w : FillFailure) :
    (s.originFails e w).patrol.fill = none := by
  unfold State.originFails
  split <;> simp [h]

/-- R94: what an acknowledged write-back of a scan or repair writes in the tracker and the memory port. -/
theorem State.patrolWritten_released (i : Fin 64) (e : Entry) (s : State) :
    (s.patrolWritten i e).tracker = (s.release i).tracker ∧ (s.patrolWritten i e).memory = (s.release i).memory := by
  unfold State.patrolWritten
  dsimp only
  split
  · split <;> simp
  all_goals simp

/-! ### What an issue record says of its entry -/

namespace State.TrackerSound
variable {s : State} (hs : s.TrackerSound)
include hs

/-- R79: an entry with an issue record that has not expired awaits the completion of its kind, as owner of its line. -/
theorem awaits {r : IssueRecord} {e : Entry} (hr : r ∈ s.memory.records) (he : s.entry r.tag = some e)
    (hp : e.phase ≠ .expired) : (e.phase = .awaitingData ∨ e.phase = .awaitingDone)
      ∧ e.writing = decide (r.op = .write) ∧ (s.lineOrder e.line).head? = some r.tag := by
  obtain ⟨e', he', hc⟩ := (hs.record r.tag).1 (List.mem_map_of_mem hr)
  obtain rfl : e = e' := Option.some.inj (he.symm.trans he')
  have phase : e.phase = .awaitingData ∨ e.phase = .awaitingDone := by
    cases h : e.phase <;> simp_all
  refine ⟨phase, ?_, hs.owner r.tag e he (by obtain h | h := phase <;> simp [h]) hp⟩
  rw [hs.op r e hr he, Entry.op]
  cases e.writing <;> simp

/-! ### Completions -/

/-- R79: an accepted SDATA ends its entry, or sends it on to its write phase. -/
theorem readTaken {i : Fin 64} {e : Entry} (he : s.entry i = some e)
    (hp : e.phase = .awaitingData ∨ e.phase = .awaitingDone) (hw : e.writing = false)
    (hh : (s.lineOrder e.line).head? = some i) (l : StoredLine) : ((s.freeCredit i).readTaken i e l).TrackerSound := by
  have old := hs.entry i e he
  have live : e.phase ≠ .waitingIssue ∧ e.phase ≠ .expired := by obtain hp | hp := hp <;> simp [hp]
  have finish {t : State} (tracker : t.tracker = (s.release i).tracker)
      (memory : t.memory = ((s.freeCredit i).release i).memory)
      (h : t.retirement = s.retirement ∧ (s.patrol.fill = none → t.patrol.fill = none)) : t.TrackerSound :=
    State.Finishes.sound (i := i) ⟨tracker, memory, h.2, .inl (by rw [h.1])⟩ hs
  have goOn {e' : Entry} {t : State} (same : e'.origin = e.origin ∧ e'.line = e.line) (hw : e'.writing = true)
      (copy : t.retirement.copy.map (·.line) = s.retirement.copy.map (·.line))
      (patrol : t.patrol = s.patrol) (tracker : t.tracker = s.tracker)
      (memory : t.memory = (s.freeCredit i).memory) : (t.wait i e').TrackerSound :=
    State.Rejoins.sound (i := i) (e' := { e' with phase := .waitingIssue })
      ⟨by rw [State.wait_tracker, tracker], by rw [State.wait_memory, memory], by simp [patrol], copy⟩ hs he same rfl
      live hh (.inr hw)
  have patrol (f : Finding) (d : Data) : ((s.freeCredit i).patrolRead i e f d).TrackerSound := by
    unfold State.patrolRead
    split
    · exact finish (by simp) (by simp) (by simp)
    · exact finish (by simp) (by simp) (by simp)
    · exact goOn ⟨rfl, rfl⟩ rfl rfl rfl rfl rfl
    · exact goOn ⟨rfl, rfl⟩ rfl rfl rfl rfl rfl
  unfold State.readTaken
  split
  · rename_i k ho
    split
    · exact finish (by simp [State.readUnchecked]) (by simp [State.readUnchecked]) (by simp [State.readUnchecked])
    · exact finish (by simp [State.readDecoded]) (by simp [State.readDecoded]) (by simp [State.readDecoded])
    · unfold State.mergeUnchecked
      split
      · exact finish (by simp) (by simp) (by simp)
      · exact goOn ⟨rfl, rfl⟩ rfl rfl rfl rfl rfl
    · unfold State.mergeDecoded
      split
      · exact finish (by simp) (by simp) (by simp)
      · split
        · exact goOn ⟨rfl, rfl⟩ rfl rfl rfl rfl rfl
        · exact goOn ⟨rfl, rfl⟩ rfl rfl rfl rfl rfl
        · exact finish (by simp) (by simp) (by simp)
        · exact finish (by simp) (by simp) (by simp)
    · rename_i hk
      simp [old.write k ho hk] at hw
  · exact patrol _ _
  · exact patrol _ _
  · rename_i ho
    simp [old.fill ho] at hw
  · rename_i ho
    unfold State.copyRead
    split
    · rename_i hj
      have := hs.copies i e he ho live.2
      simp [show s.retirement.copy = none from hj] at this
    · rename_i job hj
      exact goOn ⟨rfl, rfl⟩ rfl (by simp [show s.retirement.copy = some job from hj]) rfl rfl rfl

/-- R79: an accepted SDONE ends its entry. -/
theorem writeTaken {i : Fin 64} {e : Entry} (he : s.entry i = some e) :
    ((s.freeCredit i).writeTaken i e).TrackerSound := by
  have patrol : ((s.freeCredit i).patrolWritten i e).TrackerSound :=
    State.Finishes.sound (i := i) ⟨by simp [State.patrolWritten_released], by simp [State.patrolWritten_released],
      by simp, .inl (by simp)⟩ hs
  unfold State.writeTaken
  split
  · exact State.Finishes.sound (i := i) ⟨by simp [State.writeDone], by simp [State.writeDone], by simp,
      .inl (by simp [State.writeDone])⟩ hs
  · exact patrol
  · exact patrol
  · exact State.Finishes.sound (i := i) ⟨by simp, by simp, fun hf => by simp [hf], .inl (by simp)⟩ hs
  · rename_i ho
    exact State.Finishes.sound (i := i) ⟨by simp, by simp, by simp, .inr ⟨e, he, ho⟩⟩ hs

/-- R80: a completion with status ERROR ends its entry. -/
theorem targetError {i : Fin 64} {e : Entry} (he : s.entry i = some e) : (s.targetError i e).TrackerSound := by
  unfold State.targetError
  refine State.Finishes.sound (s := s) (i := i) ⟨by simp, by simp,
    fun hf => State.originFails_noFill (s := (s.freeCredit i).raise _) hf e _, ?_⟩ hs
  by_cases ho : e.origin = .copy
  · exact .inr ⟨e, he, ho⟩
  · exact .inl (by simp [State.originFails_copy ho])

theorem completion {op : MemoryOp} (tag status : Byte) {finish : Fin 64 → Entry → State → State}
    (hf : ∀ i e, s.entry i = some e → (e.phase = .awaitingData ∨ e.phase = .awaitingDone) →
      e.writing = decide (op = .write) → (s.lineOrder e.line).head? = some i →
      (finish i e (s.freeCredit i)).TrackerSound) :
    (s.completion op tag status finish).TrackerSound := by
  have unmatched (w : Reason) : (s.unmatched tag w).TrackerSound := hs.same rfl ⟨rfl, rfl, id⟩
  unfold State.completion
  split
  · exact hs
  · split
    · exact unmatched _
    · rename_i r hr
      have hr : r ∈ s.memory.records := List.mem_of_find?_eq_some hr
      split
      · exact unmatched _
      · rename_i hop
        split
        · exact unmatched _
        · rename_i e he
          split
          · exact State.Finishes.sound (i := r.tag) ⟨by simp [State.lateCompletion], by simp [State.lateCompletion],
              by simp, .inl (by simp)⟩ hs
          · rename_i hp
            obtain ⟨phase, writing, head⟩ := hs.awaits hr he hp
            split
            · exact hf r.tag e he phase (by simpa [not_not.1 hop] using writing) head
            · exact hs.targetError he

/-- R84: the entry of an operation that times out expires. -/
theorem timeoutExpiry (i : Fin 64) : (s.timeoutExpiry i).TrackerSound := by
  unfold State.timeoutExpiry
  split
  · exact hs
  · rename_i e he
    obtain ⟨entry, phase⟩ : s.entry i = some e ∧ (e.phase = .awaitingData ∨ e.phase = .awaitingDone) := by
      unfold State.expiring at he
      (repeat' split at he) <;> simp_all
    refine State.Expires.sound (i := i) (e := e) ⟨by simp, by simp,
      fun hf => State.originFails_noFill (by simpa using hf) e _, ?_⟩ hs entry phase
    by_cases ho : e.origin = .copy
    · exact .inr ho
    · exact .inl (by simp [State.originFails_copy ho])

/-! ### The memory link -/

/-- R71: a link that goes UP finds an empty tracker. -/
theorem memoryHello (n : Byte) (k : BitVec 64) : (s.memoryHello n k).TrackerSound := by
  unfold State.memoryHello
  split
  · exact hs.same rfl ⟨rfl, rfl, id⟩
  · rename_i hd
    split
    · have noRecord : s.memory.records = [] := List.eq_nil_iff_forall_not_mem.2 fun r hr => by
        obtain ⟨e, he, -⟩ := (hs.record r.tag).1 (List.mem_map_of_mem hr)
        simp [hs.down hd] at he
      have noOrder : s.tracker.order = [] := List.eq_nil_iff_forall_not_mem.2 fun j hj => by
        obtain ⟨e, he, -⟩ := (hs.order j).1 hj
        simp [hs.down hd] at he
      have noWaiting : s.memory.waiting = [] := List.eq_nil_iff_forall_not_mem.2 fun j hj => by
        obtain ⟨e, he, -⟩ := (hs.waiting j).1 hj
        simp [hs.down hd] at he
      have entries (j : Fin 64) : (s.memoryUp n k).entry j = none :=
        congrFun (State.entry_of_tracker (s := s) (by simp)) j |>.trans (hs.down hd j)
      exact .of_empty entries (by simpa using noOrder) (by simpa [State.memoryUp, MemoryPort.rise] using noWaiting)
        (by simp [State.memoryUp, MemoryPort.rise]) (by simpa using hs.fill hd)
    · exact hs.same rfl ⟨rfl, rfl, id⟩

/-- R73: a memory-link loss leaves the tracker empty and no fill. -/
theorem memoryLoss (w : Reason) : (s.memoryLoss w).TrackerSound := by
  unfold State.memoryLoss
  split
  · exact hs
  · exact .of_empty (by simp [State.loseAll, State.entry]) rfl (by simp [MemoryPort.fall])
      (by simp [MemoryPort.fall]) (by simp)

theorem helloExpiry : s.helloExpiry.TrackerSound := by
  unfold State.helloExpiry
  split
  · exact State.SameTracker.sound (s := s) ⟨rfl, rfl, rfl, rfl, rfl, rfl, fun _ => id⟩ hs
  · exact hs

/-! ### The management commands -/

/-- R108: the fill starts while the memory link is UP. -/
theorem fillStart (b : ArgBlock) : (fillStart b s).state.TrackerSound := by
  obtain e | ⟨i, r, -, -, up, e⟩ := fillStart_cases b s
  · rwa [e]
  · rw [e]
    refine State.TrackerSound.fillIssue (State.SameTracker.sound (s := s) ⟨rfl, rfl, rfl, rfl, rfl, rfl, ?_⟩ hs)
    simp [up]

theorem timeoutSet (b : ArgBlock) : (timeoutSet b s).state.TrackerSound := by
  obtain e | ⟨v, -, e⟩ := timeoutSet_cases b s
  · rwa [e]
  · rw [e]
    exact State.SameTracker.sound (s := s) ⟨rfl, rfl, rfl, rfl, rfl, rfl, fun _ => id⟩ hs

theorem commandOf {k : Nat} {c : Command} {f : State → Reply} (h : commandOf k c = some f) :
    (f s).state.TrackerSound := by
  unfold Machine.commandOf at h
  split at h
  case h_7 =>
    cases h
    exact hs.fillStart _
  case h_18 =>
    cases h
    exact hs.timeoutSet _
  all_goals cases h
  all_goals
    simp only [regionDefine, regionModify, regionState, regionRemove, regionQuery, patrolSet, fillStop, historyQuery,
      historyClear, spareSet, spareMark, spareQuery, retireLine, retireCancel, retireLoad, retireQuery, eventGrant,
      managerSet, freeze, deviceQuery, refuse, done, started]
    (repeat' split) <;>
      refine hs.same ?_ ?_ <;>
        simp [State.boundsChanged, State.regionRemoved, State.cancelRetire, State.loadRetired, State.changeManager, *]

theorem serveCommand : s.serveCommand.TrackerSound := by
  unfold State.serveCommand
  split
  · rename_i c rest _
    have taken : (s.takeCommand rest).TrackerSound := hs.same rfl ⟨rfl, rfl, id⟩
    have processed : ((s.takeCommand rest).process c).state.TrackerSound := by
      unfold State.process
      (repeat' split)
      · exact taken.commandOf ‹_›
      · exact taken
      · exact taken.same rfl ⟨rfl, rfl, id⟩
    exact processed.same (by simp [Reply.send]) (by simp [Reply.send])
  · exact hs

end State.TrackerSound

theorem operationsKeep_trackerSound : OperationsKeep State.TrackerSound where
  closeEvent _ hs := by
    obtain ⟨pools, entry, orders, waiting, records, copy, down⟩ := State.trackerSound_iff.1 hs
    exact State.trackerSound_iff.2 ⟨pools, entry, orders, waiting.close, records, copy, down⟩
  pending _ _ hs := hs.same rfl ⟨rfl, rfl, id⟩
  reset m q := .of_empty (by simp [State.reset, State.entry]) rfl rfl rfl rfl
  ownershipPass _ hs := hs.ownershipPass
  repairService _ hs := hs.repairService
  fillIssue _ hs := hs.fillIssue
  copyStart _ hs := hs.copyStart
  acceptance _ hs := hs.acceptance
  serveCommand _ hs := hs.serveCommand
  issueGrant _ hs := hs.issueGrant
  eventDelivery _ hs := hs.same (by simp) (by simp)
  requesterHello _ hs := hs.requesterHello
  requesterFall w _ hs := hs.requesterFall w
  requestArrives q _ hs := hs.requestArrives q
  commandArrives c _ hs := hs.commandArrives c
  requesterBad k n _ hs := hs.requesterBad k n
  transmitPacket _ hs := hs.same (by simp) (by simp)
  memoryHello n k _ hs := hs.memoryHello n k
  memoryLoss w _ hs := hs.memoryLoss w
  helloExpiry _ hs := hs.helloExpiry
  memoryBad _ _ _ hs := hs.same (by simp) (by simp)
  sdata tag status l _ hs := hs.completion tag status fun _ _ he hp hw hh => hs.readTaken he hp (by simpa using hw) hh l
  sdone tag status _ hs := hs.completion tag status fun _ _ he _ _ _ => hs.writeTaken he
  timeoutExpiry i _ hs := hs.timeoutExpiry i
  slotExpiry _ hs := hs.slotExpiry
  tick _ hs := hs.same rfl ⟨rfl, rfl, id⟩

/-- Settles O59: each operation keeps the law of the tracker, so every step does. -/
theorem trackerStaysInOrder : Obligations.TrackerStaysInOrder := operationsKeep_trackerSound.keptByStep

end Sys2Proof.Machine
end

section
/-! SUPPORT. Owners and admitted requests (O12, O14, O15): who becomes owner next, what an owner's line resolves to, and the
entry of a request that is admitted. -/

namespace Sys2Proof.Machine

/-! ### The passing of ownership -/

/-- R45, R76: ownership passes to the entry of the lowest index among those it can pass to. -/
theorem State.ownershipPass_of_head {s : State} {i : Fin 64} {e : Entry} (he : s.entry i = some e)
    (hp : e.phase = .waitingLine) (hh : (s.lineOrder e.line).head? = some i)
    (first : ∀ j, j < i → s.passable j = false) : s.ownershipPass = s.becomeOwner i := by
  have next : s.nextOwner = some i := find?_finRange_eq_some.2 ⟨State.passable_iff.2 ⟨e, he, hp, hh⟩, first⟩
  simp only [State.ownershipPass, next]

/-- R45: an entry that is no copy becomes owner by its own entry and the waiting order alone. -/
theorem State.becomeOwner_of_other {s : State} {i : Fin 64} {e : Entry} (he : s.entry i = some e)
    (ho : e.origin ≠ .copy) : s.becomeOwner i = s.wait i { e with physical := some (s.resolve e.line) } := by
  simp only [State.becomeOwner, he]
  split
  · exact absurd ‹_› ho
  · rfl

/-- R49: a copy that becomes owner has the map prepared after its source is resolved. -/
theorem State.becomeOwner_of_copy {s : State} {i : Fin 64} {e : Entry} {job : CopyJob} (he : s.entry i = some e)
    (ho : e.origin = .copy) (hj : s.retirement.copy = some job) :
    s.becomeOwner i = (s.prepareMap job).wait i { e with physical := some (s.resolve e.line) } := by
  simp only [State.becomeOwner, he, ho, hj]

/-! ### The physical line -/

/-- R48: a line without a map entry stands at its own place. -/
theorem State.resolve_of_none {s : State} {l : LineNo} (h : s.retirement.entry l = none) : s.resolve l = l := by
  unfold State.resolve
  split <;> simp_all

/-- R48: a line with an ACTIVE map entry stands on its spare. -/
theorem State.resolve_of_active {s : State} {a : SpareArea} {m : MapEntry} {l : LineNo} (ha : s.retirement.area = some a)
    (hm : s.retirement.entry l = some m) (hs : m.state = .active) :
    s.resolve l = a.base + BitVec.ofNat 32 m.spare := by
  simp [State.resolve, ha, hm, hs, SpareArea.line]

/-- Settles O14: the owner, the physical line, and the place in the waiting order. -/
theorem ownershipPassesToTheHeadOfALineOrder : Obligations.OwnershipPassesToTheHeadOfALineOrder := by
  refine ⟨fun s i e he hp hh first ho => ?_, fun s a m l ha hm hs => State.resolve_of_active ha hm hs,
    fun s l h => State.resolve_of_none h, fun m i old new hw ho hn hs hi => ?_⟩
  · have row : exec .ownershipPass s = .next s.ownershipPass := rfl
    rw [row, State.ownershipPass_of_head he hp hh first, State.becomeOwner_of_other he ho]
    rfl
  · rw [MemoryPort.join, hw, joinWaiting_append ho hn hs hi]
    simp

/-- Settles O15: the map by whether it holds an entry of the copy's line. -/
theorem copyOwnershipPreparesTheMap : Obligations.CopyOwnershipPreparesTheMap := by
  intro s i e job he hp hh first ho hj hl owner
  have row : exec .ownershipPass s = .next ((s.prepareMap job).wait i { e with physical := some (s.resolve e.line) }) := by
    rw [← State.becomeOwner_of_copy he ho hj, ← State.ownershipPass_of_head he hp hh first]
    rfl
  refine ⟨fun absent => ?_, fun a m ha hm hs => ?_⟩
  · have inserted : s.prepareMap job = s.setMap (insertMap
        { line := e.line, spare := job.spare, state := .copying, pending := none, auto := decide (job.origin = .auto)
          void := false, time := none } s.retirement.map) := by
      simp only [State.prepareMap, hl, absent]
    rw [row, inserted, State.resolve_of_none absent]
    rfl
  · have changed : s.prepareMap job = s.setMap (s.retirement.map.map fun x =>
        if x.line = e.line then { x with state := .copying, pending := some job.spare } else x) := by
      simp only [State.prepareMap, hl, hm, changeMap]
    rw [row, changed, State.resolve_of_active ha hm hs]
    rfl

/-! ### An admitted request -/

/-- 3.4: a request that passes every check becomes an entry. -/
theorem State.decideRequest_of_admitted {s : State} {q : Request} {g : Fin 32} {mode : Mode} (hb : ¬q.Bad)
    (up : s.memory.link = .up) (free : ¬s.Holds q)
    (hd : s.decideRegion q.requester q.body.kind q.line = .admitted g mode) (i : Fin 64) :
    s.decideRequest q i = s.create i (q.entry g mode) := by
  unfold State.decideRequest
  rw [if_neg (mt Request.malformed_iff.1 hb), if_neg (by simp [up]), if_neg (mt State.tagHeld_iff.1 free), hd]

/-- R54: the entry of an admitted request, its requester number and tag being in range (R51). -/
theorem Request.entry_eq {q : Request} (hr : q.requester.toNat < 16) (ht : q.tag.toNat < 64) (g : Fin 32) (mode : Mode) :
    q.entry g mode =
      { origin := .requester
          { requester := ⟨q.requester.toNat, hr⟩, tag := ⟨q.tag.toNat, ht⟩, kind := q.body.kind, abandoned := false }
        line := q.line, physical := none, region := some g, mode := some mode
        data := match q.body with
          | .read => none
          | .write d => some d
          | .merge _ d => some d
        mask := match q.body with
          | .read => none
          | .write _ => none
          | .merge m _ => some m
        phase := .waitingLine, writing := decide (q.body.kind = .write), finding := none } := by
  have requester : Fin.ofNat 16 q.requester.toNat = ⟨q.requester.toNat, hr⟩ := Fin.ext (Nat.mod_eq_of_lt hr)
  have tag : Fin.ofNat 64 q.tag.toNat = ⟨q.tag.toNat, ht⟩ := Fin.ext (Nat.mod_eq_of_lt ht)
  unfold Request.entry
  rw [requester, tag] <;> rfl

/-- R44, R45: a new entry that is no copy: at the end of its line order, and owner at once if it is alone there. -/
theorem State.create_effect {s : State} {e : Entry} (ho : e.origin ≠ .copy) (i : Fin 64) :
    (s.create i e).tracker =
        { entries := s.tracker.entries.set i.val (some
            (if s.lineOrder e.line = [] then { e with physical := some (s.resolve e.line), phase := .waitingIssue }
            else { e with phase := .waitingLine }))
          order := s.tracker.order ++ [i] }
      ∧ (s.create i e).memory = if s.lineOrder e.line = [] then s.memory.join i else s.memory := by
  rw [State.create_eq]
  split
  · have he : (s.append i e).entry i = some { e with phase := .waitingLine } := by simp [State.entry_append]
    rw [State.becomeOwner_of_other he ho]
    simp [State.append, State.resolve]
  · exact ⟨rfl, rfl⟩

theorem State.entry_create {s : State} {e : Entry} (ho : e.origin ≠ .copy) (i j : Fin 64) :
    (s.create i e).entry j = if i = j then some
        (if s.lineOrder e.line = [] then { e with physical := some (s.resolve e.line), phase := .waitingIssue }
        else { e with phase := .waitingLine })
      else s.entry j := by
  simp only [State.entry, (State.create_effect ho i).1, Vector.getElem_set, Fin.val_inj]

/-- R50, R180: the credit that is owed is handed as a CREDIT packet where nothing else is to be sent. -/
theorem State.handCredit_transmit {s : State} (h : 0 < s.port.requestOwed) :
    s.handCredit.port =
      { s.port with transmit := if s.port.link = .up ∧ s.port.transmit = [] then [.credit] else s.port.transmit } := by
  unfold State.handCredit State.hand
  by_cases hc : s.port.link = .up ∧ s.port.transmit = []
  · simp [hc, h]
  · rw [if_neg hc]
    split
    · rename_i ht
      rw [if_neg fun hl => hc ⟨hl, ht.1⟩]
    · rfl

/-- Settles O12: the entry, the orders and the port. -/
theorem acceptanceAdmitsTheHeadAsAnEntry : Obligations.AcceptanceAdmitsTheHeadAsAnEntry := by
  intro before q rest i g mode hr ht s hq hi good up free hd
  obtain ⟨-, unused, lowest⟩ := State.slotFor_eq_some.1 hi
  have row : exec .acceptance before = .next ((s.takeRequest rest).create i (q.entry g mode)).handCredit := by
    rw [exec_acceptance hq hi, State.decideRequest_of_admitted (s := s.takeRequest rest) good up free hd]
  have origin : (q.entry g mode).origin ≠ .copy := by simp [Request.entry]
  obtain ⟨tracker, memory⟩ := State.create_effect (s := s.takeRequest rest) origin i
  have entry (j : Fin 64) := State.entry_create (s := s.takeRequest rest) origin i j
  have entries (u : State) (j : Fin 64) : u.handCredit.entry j = u.entry j :=
    congrFun (State.entry_of_tracker (by simp)) j
  refine ⟨_, row, ⟨unused, lowest⟩, ?_, fun j hj => ?_, ?_, ?_, ?_, ?_⟩
  · rw [entries, entry, if_pos rfl, Request.entry_eq hr ht]
    by_cases alone : s.lineOrder q.line = []
    · have alone' : (s.takeRequest rest).lineOrder q.line = [] := alone
      simp only [if_pos alone, if_pos alone']
      rfl
    · have alone' : ¬(s.takeRequest rest).lineOrder q.line = [] := alone
      simp only [if_neg alone, if_neg alone'] <;> rfl
  · rw [entries, entry, if_neg (Ne.symm hj)]
    rfl
  · simp [tracker]
  · have handed (u : State) : u.handCredit.memory = u.memory := by simp
    exact (handed _).trans memory
  · rw [State.handCredit_transmit (by simp [State.takeRequest])]
    simp [State.takeRequest]
  · simp [State.create_retirement origin]

end Sys2Proof.Machine
end

section
/-! SUPPORT. The ends of operations at the memory target (O24, O28, O29): acknowledged writes, completions with status ERROR,
and deadlines. -/

namespace Sys2Proof.Machine

/-! ### Acknowledged writes -/

theorem State.writeTaken_requester {e : Entry} {k : Ticket} (h : e.origin = .requester k) (i : Fin 64) (s : State) :
    s.writeTaken i e = s.writeDone i e k := by
  simp [State.writeTaken, h]

/-- R62: a merge whose read was CORRECTED reports its write-back. -/
theorem State.reportMerge_of_corrected {e : Entry} {p : Fin 72} {g : Fin 32} (hf : e.finding = some (.corrected p))
    (hg : e.region = some g) (s : State) : s.reportMerge e = s.reportWriteBack e.line g p .merge := by
  simp [State.reportMerge, hf, hg]

theorem State.reportMerge_of_other {e : Entry} (h : ∀ p, e.finding ≠ some (.corrected p)) (s : State) :
    s.reportMerge e = s := by
  unfold State.reportMerge
  split
  · exact absurd ‹_› (h _)
  all_goals rfl

/-- Settles O24: the answer, and the report of a merge that had corrected. -/
theorem writesAndMergesFinishOnTheirAcknowledgement : Obligations.WritesAndMergesFinishOnTheirAcknowledgement := by
  intro s tag i e k g taken ho hk hg freed answered
  have row : exec (.sdone tag 0) s = .next ((answered.reportMerge e).release i) := by
    rw [taken.exec_sdone, State.writeTaken_requester ho, State.writeDone, State.respondEntry_done hk]
  refine ⟨fun p hf => ?_, fun hf => ?_⟩
  · rw [row, State.reportMerge_of_corrected hf hg]
  · rw [row, State.reportMerge_of_other hf]

/-! ### Failures -/

section
variable {e : Entry} (w : FillFailure) (s : State)

theorem State.originFails_requester {k : Ticket} (h : e.origin = .requester k) :
    s.originFails e w = s.respondEntry k w.status false zeroData := by
  simp [State.originFails, h]

theorem State.originFails_patrol (h : e.origin = .scan ∨ e.origin = .repair) : s.originFails e w = s := by
  rcases h with h | h <;> simp [State.originFails, h]

theorem State.originFails_fill (h : e.origin = .fill) :
    s.originFails e w = s.fillWriteFailed e.line (e.physical.getD e.line) w := by
  simp [State.originFails, h]

theorem State.originFails_ofCopy (h : e.origin = .copy) :
    s.originFails e w = s.copyFail true e.writing (copyReason e.writing w) e.region := by
  simp [State.originFails, h]

end

theorem copyReason_targetError (b : Bool) : copyReason b .targetError = if b then .writeError else .readError := by
  cases b <;> rfl

theorem copyReason_timeout (b : Bool) : copyReason b .timeout = if b then .writeTimeout else .readTimeout := by
  cases b <;> rfl

/-! ### Status ERROR -/

/-- R80: a completion taken with status ERROR ends its entry. -/
theorem State.Takes.completion_error {s : State} {op : MemoryOp} {tag status : Byte} {i : Fin 64} {e : Entry}
    (h : s.Takes op tag i e) (hs : status ≠ 0) (finish : Fin 64 → Entry → State → State) :
    s.completion op tag status finish = s.targetError i e := by
  obtain ⟨up, ⟨r, found, kind, rfl⟩, entry, waits⟩ := h
  have error : ¬status = 0#8 := hs
  simp [State.completion, up, found, kind, entry, waits, error]

/-- Settles O28: by the origin of the entry. -/
theorem targetErrorsFailTheirEntry : Obligations.TargetErrorsFailTheirEntry := by
  intro s tag status l op i e taken hs raised ends
  have fails {u : State} (h : raised.originFails e .targetError = u) : ends u := by
    have ended : s.settle.targetError i e = u.release i := congrArg (State.release i) h
    refine ⟨?_, ?_⟩
    · rintro rfl
      exact congrArg Host.Outcome.next ((taken.completion_error hs _).trans ended)
    · rintro rfl
      exact congrArg Host.Outcome.next ((taken.completion_error hs _).trans ended)
  refine ⟨fun k ho => fails ?_, fun ho => fails ?_, fun ho => fails ?_, fun ho => fails ?_⟩
  · exact State.originFails_requester _ _ ho
  · exact State.originFails_patrol _ _ ho
  · exact State.originFails_fill _ _ ho
  · rw [State.originFails_ofCopy _ _ ho, copyReason_targetError]

/-! ### Deadlines -/

/-- R84: a record has reached its deadline when as much time has passed since its issue. -/
theorem IssueRecord.due_iff {r : IssueRecord} {now : Time} :
    r.due now = true ↔ (r.deadline - r.issued).toNat ≤ (now - r.issued).toNat := decide_eq_true_iff

/-- R84: the entry whose operation is outstanding expires once its record is due. -/
theorem State.expiring_of_record {s : State} {i : Fin 64} {e : Entry} {r : IssueRecord} (he : s.entry i = some e)
    (hp : e.phase = .awaitingData ∨ e.phase = .awaitingDone)
    (hr : s.memory.records.find? (fun x => decide (x.tag = i)) = some r) :
    s.expiring i = if r.due s.now = true then some e else none := by
  simp only [State.expiring, hr, he, hp, and_true]

/-- Settles O29: at the deadline by the origin of the entry, and before it not at all. -/
theorem deadlinesExpireTheirEntry : Obligations.DeadlinesExpireTheirEntry := by
  intro s i e r he hp hr t expired ends
  have expiring : t.expiring i = if r.due t.now = true then some e else none := State.expiring_of_record he hp hr
  refine ⟨fun due => ?_, fun early => ?_⟩
  · have fails {u : State} (h : expired.originFails e .timeout = u) : ends u := by
      have now : t.expiring i = some e := expiring.trans (if_pos (IssueRecord.due_iff.2 due))
      refine congrArg Host.Outcome.next (Eq.trans ?_ h)
      show t.timeoutExpiry i = _
      simp only [State.timeoutExpiry, now]
      rfl
    refine ⟨fun k ho => fails ?_, fun ho => fails ?_, fun ho => fails ?_, fun ho => fails ?_⟩
    · exact State.originFails_requester _ _ ho
    · exact State.originFails_patrol _ _ ho
    · exact State.originFails_fill _ _ ho
    · rw [State.originFails_ofCopy _ _ ho, copyReason_timeout]
  · have notYet : t.expiring i = none :=
      expiring.trans (if_neg fun h => absurd (IssueRecord.due_iff.1 h) (not_le.2 early))
    refine congrArg Host.Outcome.next ?_
    show t.timeoutExpiry i = t
    simp only [State.timeoutExpiry, notYet]

end Sys2Proof.Machine
end

section
/-! SUPPORT. The bridge with no command waiting (O2): its next step is the row of that step, and a timer's expiry the row of
the timer. -/

namespace Sys2Proof.Machine

theorem step_of_idle {s : State} (h : s.pending = []) : step s = .next s.idle := by
  simp only [step, h]

/-- With a step of its own to take, the bridge takes it. -/
theorem State.idle_of_next {s : State} {i : Inner} (h : s.nextInner = some i) : s.idle = i.run s := by
  simp only [State.idle, h]

theorem State.quiet_iff {s : State} : s.quiet = true ↔ s.nextInner = none := Option.isNone_iff_eq_none

section
variable {s : State} (hn : s.nextInner = none)
include hn

theorem State.settle_of_noNext : s.settle = s.closeEvent := s.settle_of_quiet (State.quiet_iff.2 hn)

/-- R180: with a packet to send, the bridge sends it. -/
theorem State.idle_of_transmit (h : s.port.link = .up ∧ s.port.transmit ≠ []) :
    s.idle = s.closeEvent.transmitPacket := by
  simp only [State.idle, hn, if_pos h]

variable (ht : ¬(s.port.link = .up ∧ s.port.transmit ≠ []))
include ht

/-- R84: with nothing to send, an operation that has reached its deadline times out. -/
theorem State.idle_of_expiring {i : Fin 64} (h : s.firstExpiring = some i) : s.idle = s.closeEvent.timeoutExpiry i := by
  simp only [State.idle, hn, if_neg ht, h]

/-- R89, R69, R151: with none of those, another timer expires, or a microsecond passes. -/
theorem State.idle_of_noExpiring (h : s.firstExpiring = none) :
    s.idle = if s.slotDue = true then s.closeEvent.slotExpiry
      else if s.helloDue = true ∧ s.memory.link = .down then s.closeEvent.helloExpiry
      else s.closeEvent.tick := by
  simp only [State.idle, hn, if_neg ht, h]

end

/-- Settles O2: by the next step of the bridge's own, and with none by what is to send and by the timers. -/
theorem idleBridgeActsByItself : Obligations.IdleBridgeActsByItself := by
  refine ⟨fun s hp => ?_, fun s h => ⟨s.settle_of_quiet h, s.settleArrival_of_quiet h⟩⟩
  have own {i : Inner} (h : s.nextInner = some i) : step s = .next (i.run s) := by
    rw [step_of_idle hp, State.idle_of_next h]
  refine ⟨own, own, own, own, fun h => ?_, own, fun h => ?_, own, fun hn => ?_⟩
  · have before := s.settleBefore_of_next .acceptance h
    rw [own h, exec, execAcceptance, before]
    rfl
  · have before := s.settleBefore_of_next .issueGrant h
    rw [own h, exec, execIssueGrant, before]
    rfl
  have settled := State.settle_of_noNext hn
  refine ⟨fun ht => ?_, fun ht => ?_⟩
  · rw [step_of_idle hp, State.idle_of_transmit hn ht, ← settled]
    rfl
  refine ⟨fun i hi => ?_, fun hi => ?_⟩
  · rw [step_of_idle hp, State.idle_of_expiring hn ht hi, ← settled]
    rfl
  have timers := (step_of_idle hp).trans (congrArg _ (State.idle_of_noExpiring hn ht hi))
  refine ⟨fun hd => ?_, fun hd => ⟨fun hh => ?_, fun hh => ?_⟩⟩
  · rw [timers, if_pos hd, ← settled]
    rfl
  · rw [timers, if_neg (by simp [hd]), if_pos hh, ← settled]
    rfl
  · rw [timers, if_neg (by simp [hd]), if_neg hh]
    rfl

end Sys2Proof.Machine
end

section
/-! SUPPORT. The loss of the memory link (O19): the end of the fill, of the copy and of every tracker entry. -/

namespace Sys2Proof.Machine

/-! ### The fill ends -/

/-- R115: the record of a fill that a memory-link loss ends. -/
def Fill.lossNotice (f : Fill) : Notice :=
  if f.phase = .failing then
    { kind := .fillFailed, region := some f.region, line := f.failed.map (·.line),
      physical := f.failed.map (·.physical), reason := f.failed.map (·.reason.reason) }
  else { kind := .fillFailed, region := some f.region, line := f.watermark, reason := some .linkLost }

theorem State.fillLost_patrol (s : State) : s.fillLost.patrol = { s.patrol with fill := none } := by
  unfold State.fillLost
  split
  · rename_i h
    rw [← h]
  · simp [State.endFilling, State.setFill]

theorem State.fillLost_events (s : State) :
    s.fillLost.events = s.events.pushAll (s.patrol.fill.toList.map Fill.lossNotice) := by
  unfold State.fillLost
  split
  · rename_i h
    simp [h, EventUnit.pushAll]
  · rename_i f h
    simp [h, EventUnit.pushAll, Fill.lossNotice]

theorem State.region_fillLost (s : State) (i : Fin 32) :
    s.fillLost.region i = (s.region i).map fun r =>
      if (s.patrol.fill.any fun f => f.region = i) = true then { r with phase := .offline } else r := by
  unfold State.fillLost
  split
  · rename_i h
    simp [h]
  · rename_i f h
    have table : State.region (s.endFilling f.region .offline) i = _ :=
      State.region_modifyRegion f.region i (fun r => { r with phase := .offline }) s
    rw [State.region_of_regions (s := s.endFilling f.region .offline) (by simp), table, h]
    by_cases hi : f.region = i <;> simp [hi]

/-! ### The copy ends -/

/-- `t` has the tables of `s` that the end of a copy reads and writes. -/
structure State.SameCopyTables (s t : State) : Prop where
  retirement : t.retirement = s.retirement
  history : t.history = s.history
  events : t.events = s.events

namespace State.SameCopyTables
variable {s t : State} (h : s.SameCopyTables t)
include h

theorem setSpare (i : Nat) (x : SpareState) : (s.setSpare i x).SameCopyTables (t.setSpare i x) := by
  unfold State.setSpare
  rw [h.retirement]
  split
  · exact ⟨rfl, h.history, h.events⟩
  · exact h

theorem restoreMap (job : CopyJob) : (s.restoreMap job).SameCopyTables (t.restoreMap job) := by
  have mapped (ms : List MapEntry) : (s.setMap ms).SameCopyTables (t.setMap ms) :=
    ⟨by rw [State.setMap_retirement, State.setMap_retirement, h.retirement], h.history, h.events⟩
  unfold State.restoreMap
  rw [h.retirement]
  (repeat' split)
  · exact h
  · exact mapped _
  · exact mapped _

theorem endCopy : s.endCopy.SameCopyTables t.endCopy :=
  ⟨by rw [State.endCopy, State.endCopy, h.retirement], h.history, h.events⟩

theorem noticeEnded (o : RetireOrigin) (l : LineNo) : (s.noticeEnded o l).SameCopyTables (t.noticeEnded o l) := by
  unfold State.noticeEnded
  split
  · exact ⟨h.retirement, by rw [State.unqueueHistory, State.unqueueHistory, h.history], h.events⟩
  · exact h

theorem raise (n : Notice) : (s.raise n).SameCopyTables (t.raise n) :=
  ⟨h.retirement, h.history, by rw [State.raise_events, State.raise_events, h.events]⟩

/-- R147: the failure of a copy reads and writes no other block. -/
theorem copyFail (owner issued : Bool) (why : Reason) (region : Option (Fin 32)) :
    (s.copyFail owner issued why region).SameCopyTables (t.copyFail owner issued why region) := by
  unfold State.copyFail
  rw [h.retirement]
  split
  · exact h
  · rename_i job _
    refine raise (noticeEnded (endCopy ?_) _ _) _
    split
    · exact (h.setSpare _ _).restoreMap job
    · exact h.setSpare _ _

end State.SameCopyTables

theorem State.copyEntry_of_tracker {s t : State} (h : t.tracker = s.tracker) : t.copyEntry = s.copyEntry := by
  simp only [State.copyEntry, State.entry_of_tracker h]

theorem State.copyLost_of_none {s : State} (h : s.copyEntry = none) : s.copyLost = s := by
  simp only [State.copyLost, h]

/-- R147: how the copy in progress fails at a memory-link loss, by how far it had come. -/
theorem State.copyLost_of_copy {s : State} {e : Entry} (h : s.copyEntry = some e) :
    s.copyLost = if e.phase = .waitingLine then s.copyFail false false .linkLostBeforeWrite e.region
      else if e.phase = .awaitingDone then s.copyFail true true .linkLostAfterWrite e.region
      else s.copyFail true false .linkLostBeforeWrite e.region := by
  simp only [State.copyLost, h]
  by_cases hw : e.phase = .waitingLine
  · simp [hw]
  · simp [hw]

/-! ### Every entry ends -/

/-- R66: what an entry that ends at a memory-link loss answers. -/
def Entry.lossAnswer (e : Entry) : Option OutPacket :=
  match e.origin with
  | .requester k =>
    if e.phase = .expired ∨ k.abandoned = true then none
    else if k.kind = .read then some (.ldata k.name.1 k.name.2 .linkLost false zeroData)
    else some (.ldone k.name.1 k.name.2 .linkLost)
  | _ => none

/-- R180: the packets that are handed to a port join its transmit order while its link is UP. -/
def RequesterPort.transmits (ps : List OutPacket) (p : RequesterPort) : RequesterPort :=
  { p with transmit := if p.link = .up then p.transmit ++ ps else p.transmit }

@[simp] theorem RequesterPort.transmits_nil (p : RequesterPort) : p.transmits [] = p := by
  simp [RequesterPort.transmits]

theorem RequesterPort.transmits_append (ps qs : List OutPacket) (p : RequesterPort) :
    (p.transmits ps).transmits qs = p.transmits (ps ++ qs) := by
  by_cases h : p.link = .up <;> simp [RequesterPort.transmits, h]

theorem State.hand_transmits (x : OutPacket) (s : State) : (s.hand x).port = s.port.transmits [x] := by
  by_cases h : s.port.link = .up
  · simp [State.hand, RequesterPort.transmits, h]
  · simp [State.hand, RequesterPort.transmits, h]

theorem State.loseEntry_port (s : State) (i : Fin 64) :
    (s.loseEntry i).port = s.port.transmits ((s.entry i).bind Entry.lossAnswer).toList := by
  unfold State.loseEntry
  split
  · rename_i he
    simp [he]
  · rename_i e he
    rw [he, Option.bind_some]
    split
    · rename_i k ho
      by_cases hx : e.phase = .expired
      · simp [Entry.lossAnswer, ho, hx]
      · by_cases hk : k.kind = .read
        · rw [if_neg hx, State.respondEntry_read hk]
          by_cases ha : k.abandoned = true
          · simp [Entry.lossAnswer, ho, ha]
          · simp [Entry.lossAnswer, ho, ha, hx, hk, State.hand_transmits, Ticket.name]
        · rw [if_neg hx, State.respondEntry_done hk]
          by_cases ha : k.abandoned = true
          · simp [Entry.lossAnswer, ho, ha]
          · simp [Entry.lossAnswer, ho, ha, hx, hk, State.hand_transmits, Ticket.name]
    all_goals
      rename_i ho
      simp [Entry.lossAnswer, ho]

theorem State.loseEntry_foldl_port (l : List (Fin 64)) (s : State) :
    (l.foldl State.loseEntry s).port
      = s.port.transmits (l.filterMap fun i => (s.entry i).bind Entry.lossAnswer) := by
  induction l generalizing s with
  | nil => simp
  | cons i is ih =>
    have table : (s.loseEntry i).entry = s.entry := State.entry_of_tracker (by simp)
    rw [List.foldl_cons, ih, table, State.loseEntry_port, RequesterPort.transmits_append]
    cases h : (s.entry i).bind Entry.lossAnswer <;> simp [h]

theorem State.loseAll_port (s : State) :
    s.loseAll.port = s.port.transmits ((List.finRange 64).filterMap fun i => (s.entry i).bind Entry.lossAnswer) := by
  simpa only [State.loseAll] using State.loseEntry_foldl_port (List.finRange 64) s

/-! ### The loss -/

/-- The bridge with the loss of the memory link recorded, before anything ends. -/
def State.linkFallen (why : Reason) (s : State) : State :=
  State.raise { kind := .memoryLinkDown, reason := some why } { s with memory := s.memory.fall s.now }

theorem State.memoryLoss_of_up {s : State} (h : s.memory.link = .up) (why : Reason) :
    s.memoryLoss why = (s.linkFallen why).fillLost.copyLost.loseAll := by
  simp only [State.memoryLoss, h]
  rfl

theorem State.memoryLoss_of_down {s : State} (h : s.memory.link = .down) (why : Reason) : s.memoryLoss why = s := by
  simp only [State.memoryLoss, h]

/-- Settles O19: block by block. -/
theorem memoryLossEndsEveryEntry : Obligations.MemoryLossEndsEveryEntry := by
  intro s t answers filled lost
  have loses (why : Reason) (up : t.memory.link = .up) : lost why (t.memoryLoss why) := by
    rw [State.memoryLoss_of_up up]
    have port : (t.linkFallen why).fillLost.copyLost.loseAll.port = t.port.transmits answers := by
      have table : (t.linkFallen why).fillLost.copyLost.entry = t.entry :=
        State.entry_of_tracker (by simp [State.linkFallen])
      have same : (t.linkFallen why).fillLost.copyLost.port = t.port := by simp [State.linkFallen]
      have answered : answers = (List.finRange 64).filterMap fun i => (t.entry i).bind Entry.lossAnswer :=
        List.filterMap_congr fun i _ => by cases t.entry i <;> rfl
      rw [State.loseAll_port, table, same, answered]
    have events : (t.linkFallen why).fillLost.events
        = t.events.pushAll ({ kind := .memoryLinkDown, reason := some why } :: filled) := by
      rw [State.fillLost_events]
      have same : filled = t.patrol.fill.toList.map Fill.lossNotice := by
        cases h : t.patrol.fill <;> simp [filled, h, Fill.lossNotice]
      have raised : (t.linkFallen why).events = t.events.push { kind := .memoryLinkDown, reason := some why } := rfl
      have fill : (t.linkFallen why).patrol.fill = t.patrol.fill := rfl
      rw [same, raised, fill, EventUnit.pushAll, EventUnit.pushAll, List.foldl_cons]
    have copyEntry : (t.linkFallen why).fillLost.copyEntry = t.copyEntry :=
      State.copyEntry_of_tracker (by simp [State.linkFallen])
    refine ⟨?_, fun i => ?_, rfl, ?_, fun i => ?_, port, by simp [State.linkFallen], by simp [State.linkFallen],
      fun hc => ?_, fun e he => ?_⟩
    · simp [State.linkFallen, MemoryPort.fall, State.now]
    · simp [State.loseAll, State.entry]
    · simp [State.fillLost_patrol, State.linkFallen]
    · rw [State.region_of_regions (s := (t.linkFallen why).fillLost) (by simp), State.region_fillLost]
      rfl
    · rw [State.copyLost_of_none (copyEntry.trans hc)]
      exact ⟨by simp [State.linkFallen], by simp [State.linkFallen], by simpa using events⟩
    · intro before failed
      have tables : before.SameCopyTables (t.linkFallen why).fillLost :=
        ⟨by simp [before, State.linkFallen], by simp [before, State.linkFallen], events⟩
      have ended : failed.SameCopyTables (t.linkFallen why).fillLost.copyLost := by
        rw [State.copyLost_of_copy (copyEntry.trans he)]
        dsimp only [failed]
        (repeat' split)
        · exact tables.copyFail _ _ _ _
        · exact tables.copyFail _ _ _ _
        · exact tables.copyFail _ _ _ _
      exact ⟨by simpa using ended.retirement, by simpa using ended.history, by simpa using ended.events⟩
  refine ⟨fun up => ⟨⟨_, rfl, loses _ up⟩, ⟨_, rfl, loses _ up⟩⟩, fun down => ⟨?_, ?_⟩⟩
  · exact congrArg Host.Outcome.next (State.memoryLoss_of_down down _)
  · exact congrArg Host.Outcome.next (State.memoryLoss_of_down down _)

end Sys2Proof.Machine
end

section
/-! SUPPORT. Scan slots (O32): the region that a slot serves, and the entries that its burst creates. -/

namespace Sys2Proof.Machine

/-! ### A pool with room has an index -/

/-- Every entry counts against one pool. -/
theorem poolCount_total (table : EntryTable) :
    poolCount table .requester + poolCount table .patrol + poolCount table .copy
      = (List.finRange 64).countP fun j => (table j).isSome := by
  unfold poolCount
  induction List.finRange 64 with
  | nil => rfl
  | cons j js ih =>
    simp only [List.countP_cons]
    cases h : table j with
    | none => simpa using ih
    | some e => cases hp : e.origin.pool <;> simp [hp] <;> omega

/-- R40: the ceilings add up to the 64 indices, so a pool below its ceiling finds one free. -/
theorem State.TrackerSound.slotFor_isSome {s : State} (hs : s.TrackerSound) {p : Pool} :
    (s.slotFor p).isSome = true ↔ s.occupancy p < p.ceiling := by
  constructor
  · intro h
    obtain ⟨i, hi⟩ := Option.isSome_iff_exists.1 h
    exact (State.slotFor_eq_some.1 hi).1
  · intro h
    by_contra hn
    have full : ∀ j ∈ List.finRange 64, (s.entry j).isSome = true := by
      simpa [State.slotFor, h, Option.isSome_iff_ne_none] using hn
    have total := poolCount_total s.entry
    rw [List.countP_eq_length.2 full, List.length_finRange] at total
    have requester : poolCount s.entry .requester ≤ 57 := hs.pools .requester
    have patrol : poolCount s.entry .patrol ≤ 6 := hs.pools .patrol
    have copy : poolCount s.entry .copy ≤ 1 := hs.pools .copy
    cases p <;> simp only [State.occupancy_eq, Pool.ceiling] at h <;> omega

/-! ### One scan entry -/

/-- R76: an entry above all that have joined at the event joins the end of the waiting order. -/
theorem joinWaiting_of_last {joined : List (Fin 64)} {i : Fin 64} (h : ∀ j ∈ joined, ¬i < j) (l : List (Fin 64)) :
    joinWaiting joined i l = l ++ [i] := by
  induction l with
  | nil => rfl
  | cons j js ih =>
    rw [joinWaiting, if_neg fun hj => h j hj.1 hj.2, ih, List.cons_append]

/-- The scan entry that a burst creates is one more of the patrol pool. -/
theorem State.occupancy_create {s : State} {i : Fin 64} {e : Entry} (ho : e.origin ≠ .copy) (free : s.entry i = none)
    (p : Pool) : (s.create i e).occupancy p = s.occupancy p + if e.origin.pool = p then 1 else 0 := by
  obtain ⟨x, hx, table⟩ : ∃ x : Entry, x.origin = e.origin ∧
      (s.create i e).entry = EntryTable.write s.entry i (some x) := by
    refine ⟨_, ?_, funext fun j => State.entry_create ho i j⟩
    split <;> rfl
  have count := poolCount_write s.entry i (some x) p
  rw [State.occupancy_eq, table, State.occupancy_eq]
  have share : poolShare (s.entry i) p = 0 := by simp [poolShare, free]
  by_cases hp : e.origin.pool = p
  · have : poolShare (some x) p = 1 := by simp [poolShare, hx, hp]
    rw [if_pos hp]
    omega
  · have : poolShare (some x) p = 0 := by simp [poolShare, hx, hp]
    rw [if_neg hp]
    omega

/-- The entries that have joined the waiting order at the present event stand below every free index. -/
def State.JoinedBelowFree (s : State) : Prop := ∀ j ∈ s.memory.joined, ∀ i, s.entry i = none → j < i

/-- R44, R76: a scan entry at the lowest free index, which joins the waiting order last if it is owner at once. -/
theorem State.create_scan {s : State} {i : Fin 64} (slot : s.slotFor .patrol = some i) (below : s.JoinedBelowFree)
    (k : Fin 32) (l : LineNo) :
    (∃ ws, ws.Sublist [i] ∧ (s.create i (scanEntry k l)).memory
        = { s.memory with waiting := s.memory.waiting ++ ws, joined := s.memory.joined ++ ws })
      ∧ (s.create i (scanEntry k l)).JoinedBelowFree := by
  obtain ⟨-, free, lowest⟩ := State.slotFor_eq_some.1 slot
  have last (ws : List (Fin 64)) : ∀ j ∈ s.memory.joined, ¬i < j := fun j hj => (below j hj i free).asymm
  have memory := (State.create_effect (s := s) (e := scanEntry k l) (by simp [scanEntry]) i).2
  have joins : ∃ ws, ws.Sublist [i] ∧ (s.create i (scanEntry k l)).memory
      = { s.memory with waiting := s.memory.waiting ++ ws, joined := s.memory.joined ++ ws } := by
    rw [memory]
    split
    · exact ⟨[i], .refl _, by rw [MemoryPort.join, joinWaiting_of_last (last [])]⟩
    · exact ⟨[], List.nil_sublist _, by simp⟩
  refine ⟨joins, fun j hj m hm => ?_⟩
  obtain ⟨ws, hws, memory⟩ := joins
  rw [State.entry_create (by simp [scanEntry])] at hm
  split at hm
  · cases hm
  · rename_i him
    have above : i < m := by
      refine lt_of_le_of_ne (not_lt.1 fun h => lowest m h hm) him
    rw [memory] at hj
    obtain hj | hj := List.mem_append.1 hj
    · exact below j hj m hm
    · obtain rfl : j = i := by simpa using hws.subset hj
      exact above

/-! ### A burst -/

/-- The lines from a region's cursor to its limit (R91). -/
def Region.remaining (r : Region) : Nat := r.limit.toNat - r.cursor.toNat + 1

theorem Region.cursor_next_toNat {r : Region} (h : r.cursor.toNat < r.limit.toNat) :
    (r.cursor + 1).toNat = r.cursor.toNat + 1 := by
  have noWrap : r.cursor.toNat + (1 : LineNo).toNat < 2 ^ 32 := by
    have := r.limit.isLt
    simp
    omega
  rw [BitVec.toNat_add_of_lt noWrap]
  rfl

/-- How many entries a burst of `n` may create (R91). -/
def State.burstRoom (n : Nat) (s : State) : Nat := min n (6 - s.occupancy .patrol)

/-- R91, R92: `u` is `s` after a burst of at most `n` scan entries from the cursor of region `k`, at the indices `js`. -/
structure State.Scanned (k : Fin 32) (r : Region) (n : Nat) (js : List (Fin 64)) (s u : State) : Prop where
  length : js.length = min (s.burstRoom n) r.remaining
  order : u.tracker.order = s.tracker.order ++ js
  created : ∀ m j, js[m]? = some j → s.entry j = none ∧ ∃ e, u.entry j = some e ∧ e.origin = .scan
    ∧ e.line = r.cursor + BitVec.ofNat 32 m ∧ e.region = some k ∧ e.mode = some .correcting ∧ e.writing = false
  kept : ∀ j, j ∉ js → u.entry j = s.entry j
  memory : ∃ ws, ws.Sublist js
    ∧ u.memory = { s.memory with waiting := s.memory.waiting ++ ws, joined := s.memory.joined ++ ws }
  goesOn : ¬r.remaining ≤ s.burstRoom n →
    u.region k = some { r with cursor := r.cursor + BitVec.ofNat 32 js.length } ∧ u.events = s.events
  wraps : r.remaining ≤ s.burstRoom n → u.region k = some { r with cursor := r.base, passes := r.passes + 1 }
    ∧ u.events = if r.reportPasses then
        s.events.push { kind := .passDone, region := some k, count := some (r.passes + 1).toNat }
      else s.events
  others : ∀ j, j ≠ k → u.region j = s.region j

/-- A burst that may create nothing. -/
theorem State.Scanned.nothing {k : Fin 32} {r : Region} {n : Nat} {s : State} (hr : s.region k = some r)
    (room : s.burstRoom n = 0) : s.Scanned k r n [] s where
  length := by simp [room]
  order := by simp
  created := by simp
  kept _ _ := rfl
  memory := ⟨[], List.nil_sublist _, by simp⟩
  goesOn _ := by simpa using hr
  wraps h := by simp [room, Region.remaining] at h
  others _ _ := rfl

/-- What a scan entry holds when its burst has created it. -/
theorem State.entry_create_scan (s : State) (i : Fin 64) (k : Fin 32) (l : LineNo) :
    ∃ e, (s.create i (scanEntry k l)).entry i = some e ∧ e.origin = .scan ∧ e.line = l ∧ e.region = some k
      ∧ e.mode = some .correcting ∧ e.writing = false := by
  rw [State.entry_create (by simp [scanEntry]), if_pos rfl]
  refine ⟨_, rfl, ?_⟩
  split <;> simp [scanEntry]

theorem State.entry_create_scan_of_ne (s : State) {i j : Fin 64} (h : j ≠ i) (k : Fin 32) (l : LineNo) :
    (s.create i (scanEntry k l)).entry j = s.entry j := by
  rw [State.entry_create (by simp [scanEntry]), if_neg h.symm]

/-- A burst whose first entry is at the limit ends there, with the end of the pass. -/
theorem State.Scanned.last {k : Fin 32} {r : Region} {n : Nat} {i : Fin 64} {s t : State}
    (slot : s.slotFor .patrol = some i) (below : s.JoinedBelowFree) (hl : r.cursor = r.limit)
    (tracker : t.tracker = (s.create i (scanEntry k r.cursor)).tracker)
    (memory : t.memory = (s.create i (scanEntry k r.cursor)).memory)
    (region : ∀ j, t.region j = if k = j then some { r with cursor := r.base, passes := r.passes + 1 } else s.region j)
    (events : t.events = if r.reportPasses then
        s.events.push { kind := .passDone, region := some k, count := some (r.passes + 1).toNat }
      else s.events) : s.Scanned k r (n + 1) [i] t := by
  obtain ⟨below6, free, -⟩ := State.slotFor_eq_some.1 slot
  have room : r.remaining ≤ s.burstRoom (n + 1) := by
    simp only [Region.remaining, hl, State.burstRoom, Pool.ceiling] at below6 ⊢
    omega
  have entry := congrFun (State.entry_of_tracker tracker)
  obtain ⟨e, he, fields⟩ := s.entry_create_scan i k r.cursor
  refine ⟨?_, ?_, fun m j hm => ?_, fun j hj => ?_, ?_, fun h => absurd room h, fun _ => ⟨?_, events⟩, fun j hj => ?_⟩
  · rw [min_eq_right room]
    simp [Region.remaining, hl]
  · rw [tracker, (State.create_effect (by simp [scanEntry]) i).1]
  · obtain ⟨rfl, rfl⟩ : m = 0 ∧ i = j := by
      cases m <;> simp_all
    exact ⟨free, e, (entry i).trans he, by simpa using fields⟩
  · rw [entry, State.entry_create_scan_of_ne s (by simpa using hj)]
  · rw [memory]
    exact (State.create_scan slot below k r.cursor).1
  · rw [region, if_pos rfl]
  · rw [region, if_neg hj.symm]

/-- A burst that goes on from the next line. -/
theorem State.Scanned.step {k : Fin 32} {r : Region} {n : Nat} {i : Fin 64} {js : List (Fin 64)} {s t u : State}
    (slot : s.slotFor .patrol = some i) (below : s.JoinedBelowFree) (hl : r.cursor.toNat < r.limit.toNat)
    (tracker : t.tracker = (s.create i (scanEntry k r.cursor)).tracker)
    (memory : t.memory = (s.create i (scanEntry k r.cursor)).memory) (events : t.events = s.events)
    (others : ∀ j, j ≠ k → t.region j = s.region j)
    (h : t.Scanned k { r with cursor := r.cursor + 1 } n js u) : s.Scanned k r (n + 1) (i :: js) u := by
  obtain ⟨below6, free, -⟩ := State.slotFor_eq_some.1 slot
  have entry := congrFun (State.entry_of_tracker tracker)
  obtain ⟨e, he, fields⟩ := s.entry_create_scan i k r.cursor
  have room : s.burstRoom (n + 1) = t.burstRoom n + 1 := by
    have occupancy : t.occupancy .patrol = s.occupancy .patrol + 1 := by
      rw [State.occupancy_eq, State.entry_of_tracker tracker]
      exact State.occupancy_create (by simp [scanEntry]) free .patrol
    simp only [State.burstRoom, occupancy, Pool.ceiling] at below6 ⊢
    omega
  have remaining : r.remaining = Region.remaining { r with cursor := r.cursor + 1 } + 1 := by
    simp only [Region.remaining, Region.cursor_next_toNat hl]
    omega
  have lines (m : Nat) : r.cursor + 1 + BitVec.ofNat 32 m = r.cursor + BitVec.ofNat 32 (m + 1) := by
    rw [BitVec.add_assoc, add_comm m 1, BitVec.ofNat_add]
    rfl
  have fresh : i ∉ js := fun hi => by
    obtain ⟨m, hm⟩ := List.mem_iff_getElem?.1 hi
    have := (h.created m i hm).1
    simp [entry, he] at this
  refine ⟨?_, ?_, fun m j hm => ?_, fun j hj => ?_, ?_, fun hn => ?_, fun hw => ?_, fun j hj => ?_⟩
  · rw [List.length_cons, h.length, room, remaining]
    omega
  · rw [h.order, tracker, (State.create_effect (by simp [scanEntry]) i).1]
    simp
  · cases m with
    | zero =>
      obtain rfl : i = j := by simpa using hm
      exact ⟨free, e, (h.kept i fresh).trans ((entry i).trans he), by simpa using fields⟩
    | succ m =>
      have hm : js[m]? = some j := by simpa using hm
      have hij : j ≠ i := fun hij => fresh (hij ▸ List.mem_of_getElem? hm)
      have := h.created m j hm
      rwa [entry, State.entry_create_scan_of_ne s hij, lines] at this
  · obtain ⟨hji, hj⟩ := not_or.1 (mt List.mem_cons.2 hj)
    rw [h.kept j hj, entry, State.entry_create_scan_of_ne s hji]
  · obtain ⟨ws, hws, hm⟩ := h.memory
    obtain ⟨⟨vs, hvs, hm₁⟩, -⟩ := State.create_scan slot below k r.cursor
    refine ⟨vs ++ ws, hvs.append hws, ?_⟩
    rw [hm, memory, hm₁]
    simp
  · obtain ⟨region, kept⟩ := h.goesOn (by omega)
    refine ⟨?_, kept.trans events⟩
    rw [region, lines, List.length_cons]
  · obtain ⟨region, raised⟩ := h.wraps (by omega)
    exact ⟨region, by rw [raised, events]⟩
  · rw [h.others j hj, others j hj]

/-- R91: the burst of a slot, one line after another. -/
theorem State.scanBurst_scanned {s : State} (hs : s.TrackerSound) (up : s.memory.link = .up) (below : s.JoinedBelowFree)
    {k : Fin 32} {r : Region} (hr : s.region k = some r) (hc : r.cursor.toNat ≤ r.limit.toNat) (n : Nat) :
    ∃ js, s.Scanned k r n js (s.scanBurst k n) := by
  induction n generalizing s r with
  | zero => exact ⟨[], .nothing hr (by simp [State.burstRoom])⟩
  | succ n ih =>
    cases slot : s.slotFor .patrol with
    | none =>
      have full : ¬s.occupancy .patrol < 6 := fun h => by
        have := hs.slotFor_isSome (p := .patrol).2 h
        simp [slot] at this
      have stops : s.scanBurst k (n + 1) = s := by simp only [State.scanBurst, hr, slot]
      rw [stops]
      refine ⟨[], .nothing hr ?_⟩
      simp only [State.burstRoom]
      omega
    | some i =>
      have table (f : Region → Region) (j : Fin 32) :
          ((s.create i (scanEntry k r.cursor)).modifyRegion k f).region j
            = if k = j then some (f r) else s.region j := by
        rw [State.region_modifyRegion, State.region_of_regions (s := s) (by simp)]
        split
        · rename_i hk
          rw [← hk, hr]
          rfl
        · rfl
      by_cases hl : r.cursor = r.limit
      · refine ⟨[i], .last slot below hl ?_ ?_ (fun j => ?_) ?_⟩
        all_goals simp only [State.scanBurst, hr, slot, if_pos hl]
        · split <;> simp
        · split <;> simp
        · split
          · exact table _ j
          · exact table _ j
        · split <;> simp
      · have lt : r.cursor.toNat < r.limit.toNat := lt_of_le_of_ne hc fun h => hl (BitVec.eq_of_toNat_eq h)
        have goes : s.scanBurst k (n + 1) = State.scanBurst k n
            ((s.create i (scanEntry k r.cursor)).modifyRegion k fun r => { r with cursor := r.cursor + 1 }) := by
          simp only [State.scanBurst, hr, slot, if_neg hl]
        have created := hs.createPatrol (e := scanEntry k r.cursor) (.inl rfl) (by simp [scanEntry]) slot up
        have entry (f : Region → Region) : ((s.create i (scanEntry k r.cursor)).modifyRegion k f).entry
            = (s.create i (scanEntry k r.cursor)).entry := State.entry_of_tracker (by simp)
        have joined := (State.create_scan slot below k r.cursor).2
        obtain ⟨js, scanned⟩ := ih
          (s := (s.create i (scanEntry k r.cursor)).modifyRegion k fun r => { r with cursor := r.cursor + 1 })
          (r := { r with cursor := r.cursor + 1 }) (created.same (by simp) (by simp)) (by simpa using up)
          (by simpa [State.JoinedBelowFree, entry] using joined) (by rw [table, if_pos rfl])
          (by rw [Region.cursor_next_toNat lt]; exact lt)
        rw [goes]
        exact ⟨i :: js, scanned.step slot below lt (by simp) (by simp) (by simp) fun j hj => by
          rw [table, if_neg hj.symm]⟩

/-! ### The slot -/

@[simp] theorem State.scanBurst_retirement (k : Fin 32) (n : Nat) (s : State) :
    (s.scanBurst k n).retirement = s.retirement := by
  induction n generalizing s with
  | zero => rfl
  | succ n ih =>
    unfold State.scanBurst
    (repeat' split) <;> simp [ih, State.create_retirement, scanEntry]

/-- R90: ONLINE, CORRECTING and with patrol on. -/
theorem Region.eligible_iff {r : Region} : r.eligible = true ↔ r.phase = .online ∧ r.mode = .correcting ∧ r.patrol = true := by
  simp [Region.eligible, and_assoc]

/-- R89: the conditions of a scan slot. -/
theorem State.TrackerSound.slotOpen_iff {s : State} (hs : s.TrackerSound) : s.slotOpen = true ↔
    s.patrol.scanEnabled = true ∧ s.memory.link = .up ∧ s.patrol.fill = none ∧ s.occupancy .patrol < 6 := by
  have room : (s.slotFor .patrol).isSome = true ↔ s.occupancy .patrol < 6 := hs.slotFor_isSome
  simp only [State.slotOpen, Bool.and_eq_true, decide_eq_true_eq, Option.isNone_iff_eq_none, room, and_assoc]

theorem State.chooseRegion_of_none {s : State} (h : ∀ i r, s.region i = some r → ¬r.eligible = true) :
    s.chooseRegion = none :=
  List.find?_eq_none.2 fun i _ he => by
    obtain ⟨r, hr, he⟩ := Option.any_eq_true _ _ |>.1 he
    exact h i r hr he

/-- R90: the first eligible region after the pointer. -/
theorem State.chooseRegion_of_first {s : State} {k : Fin 32} {r : Region}
    (hr : s.region (s.patrol.pointer + 1 + k) = some r) (he : r.eligible = true)
    (first : ∀ j : Fin 32, j < k → ∀ q, s.region (s.patrol.pointer + 1 + j) = some q → ¬q.eligible = true) :
    s.chooseRegion = some (s.patrol.pointer + 1 + k) := by
  have found : (List.finRange 32).find? (fun j => (s.region (s.patrol.pointer + 1 + j)).any Region.eligible) = some k :=
    find?_finRange_eq_some.2 ⟨by simp [hr, he], fun j hj => by
      refine Bool.eq_false_iff.2 fun h => ?_
      obtain ⟨q, hq, hqe⟩ := Option.any_eq_true _ _ |>.1 h
      exact first j hj q hq hqe⟩
  rw [State.chooseRegion, roundFrom, List.find?_map]
  exact congrArg (Option.map _) found

theorem State.slotExpiry_of_notDue {s : State} (h : ¬s.patrol.slotPeriod ≤ (s.events.time - s.patrol.slotStart).toNat) :
    s.slotExpiry = s := if_neg (mt of_decide_eq_true h)

/-- R89: a slot that has run its period, whatever it serves, begins the next one. -/
theorem State.slotExpiry_of_due {s : State} (h : s.patrol.slotPeriod ≤ (s.events.time - s.patrol.slotStart).toNat) :
    s.slotExpiry = s.nextSlot.serveSlot := if_pos (decide_eq_true h)

theorem State.serveSlot_of_closed {s : State} (h : ¬s.slotOpen = true) : s.serveSlot = s := if_neg h

theorem State.serveSlot_of_noRegion {s : State} (h : s.chooseRegion = none) : s.serveSlot = s := by
  unfold State.serveSlot
  split
  · rw [h]
  · rfl

/-- R90, R91: an open slot serves the chosen region, to which the pointer moves. -/
theorem State.serveSlot_of_region {s : State} {i : Fin 32} {r : Region} (ho : s.slotOpen = true)
    (hc : s.chooseRegion = some i) (hr : s.region i = some r) :
    s.serveSlot = State.scanBurst i r.burst { s with patrol := { s.patrol with pointer := i } } := by
  simp only [State.serveSlot, ho, hc, hr, if_true, Option.map_some, Option.getD_some]

/-- Settles O32: the slot that is passed over, and the burst of the chosen region. -/
theorem scanSlotsServeTheNextEligibleRegion : Obligations.ScanSlotsServeTheNextEligibleRegion := by
  intro s t due after isOpen eligible passedOver
  have row : exec .slotTimerExpiry s = .next t.slotExpiry := rfl
  refine ⟨fun h => by rw [row, State.slotExpiry_of_notDue h], fun h hs => ?_⟩
  rw [row, State.slotExpiry_of_due h]
  have next : t.nextSlot.TrackerSound := hs.same rfl ⟨rfl, rfl, id⟩
  have opened : t.nextSlot.slotOpen = true ↔ isOpen := next.slotOpen_iff
  refine ⟨fun ho => ?_, fun _ hn => ?_, fun ho k r hr he hsound first => ?_⟩
  · rw [State.serveSlot_of_closed (mt opened.1 ho)]
    rfl
  · have noRegion : t.nextSlot.chooseRegion = none :=
      State.chooseRegion_of_none fun i r hr => mt Region.eligible_iff.1 (hn i r hr)
    rw [State.serveSlot_of_noRegion noRegion]
    rfl
  · intro i left allowed created wraps
    have chosen : t.nextSlot.chooseRegion = some i :=
      State.chooseRegion_of_first hr (Region.eligible_iff.2 he) fun j hj q hq => mt Region.eligible_iff.1 (first j hj q hq)
    rw [State.serveSlot_of_region (opened.2 ho) chosen hr]
    have pointed : State.TrackerSound { t.nextSlot with patrol := { t.nextSlot.patrol with pointer := i } } :=
      next.same rfl ⟨rfl, rfl, id⟩
    obtain ⟨js, scanned⟩ := State.scanBurst_scanned pointed ho.2.1 (by intro j hj; cases hj) hr hsound.cursor.2 r.burst
    refine ⟨_, js, rfl, scanned.length, scanned.order, scanned.created, scanned.kept, ?_, by simp [State.nextSlot, after],
      fun hw => ?_, scanned.wraps, scanned.others, by simp⟩
    · obtain ⟨ws, hws, memory⟩ := scanned.memory
      exact ⟨ws, hws, memory⟩
    · have length : js.length = created := scanned.length
      rw [← length]
      exact scanned.goesOn hw

end Sys2Proof.Machine
end

section
/-! SUPPORT. Bytes and fields (O9): where a field stands in a list of bytes, and what it reads. -/

namespace Sys2Proof.Machine

/-! ### Bytes -/

@[simp] theorem length_leBytes (n v : Nat) : (leBytes n v).length = n := by
  induction n generalizing v with
  | zero => rfl
  | succ n ih => simp [leBytes, ih]

@[simp] theorem oneByte_toNat (n : Nat) : (oneByte n).toNat = n % 256 := BitVec.toNat_ofNat ..

@[simp] theorem oneByte_byte (b : Byte) : oneByte b.toNat = b := BitVec.ofNat_toNat .. |>.trans (by simp)

theorem bit_eq (b : Bool) : bit b = if b = true then 1 else 0 := rfl

@[simp] theorem bit_mod (b : Bool) : bit b % 256 = if b = true then 1 else 0 := by cases b <;> rfl

theorem byteAt_append_left {a : List Byte} (b : List Byte) {i : Nat} (h : i < a.length) :
    byteAt (a ++ b) i = byteAt a i := by
  simp only [byteAt, List.getD_append _ _ _ _ h]

theorem byteAt_append_right {a : List Byte} (b : List Byte) {i : Nat} (h : a.length ≤ i) :
    byteAt (a ++ b) i = byteAt b (i - a.length) := by
  simp only [byteAt, List.getD_append_right _ _ _ _ h]

/-- The bytes of a packet read zero past its end. -/
theorem byteAt_of_length_le {a : List Byte} {i : Nat} (h : a.length ≤ i) : byteAt a i = 0 :=
  List.getD_eq_default _ _ h

theorem byteAt_replicate (n i : Nat) : byteAt (List.replicate n 0) i = 0 := by
  by_cases h : i < n <;> simp [byteAt, h]

/-- Zeros after the last byte make no difference to a byte that is read (R184). -/
theorem byteAt_padTo {n i : Nat} (h : i < n) (bs : List Byte) : byteAt (padTo n bs) i = byteAt bs i := by
  unfold padTo
  by_cases hi : i < bs.length
  · rw [byteAt_append_left _ (by simp [h, hi])]
    simp [byteAt, h]
  · rw [byteAt_append_right _ (by simp; omega), byteAt_replicate, byteAt_of_length_le (by omega)]

@[simp] theorem length_padTo (n : Nat) (bs : List Byte) : (padTo n bs).length = n := by
  simp [padTo]
  omega

/-! ### Fields -/

/-- Fields are equal whose bytes are. -/
theorem fieldAt_congr {p q : List Byte} {i j n : Nat} (h : ∀ k, k < n → byteAt p (i + k) = byteAt q (j + k)) :
    fieldAt p i n = fieldAt q j n := by
  have bytes : bytesAt p i n = bytesAt q j n := by
    ext k hk
    simp [bytesAt, h k hk]
  rw [fieldAt, bytes, fieldAt]

@[simp] theorem fieldAt_one (p : List Byte) (i : Nat) : fieldAt p i 1 = (byteAt p i).toNat := by
  simp [fieldAt, bytesAt, Vector.toList_ofFn, ofLe]

theorem fieldAt_append_left {a : List Byte} (b : List Byte) {i n : Nat} (h : i + n ≤ a.length) :
    fieldAt (a ++ b) i n = fieldAt a i n :=
  fieldAt_congr fun k hk => byteAt_append_left b (by omega)

theorem fieldAt_append_right {a : List Byte} (b : List Byte) {i n : Nat} (h : a.length ≤ i) :
    fieldAt (a ++ b) i n = fieldAt b (i - a.length) n :=
  fieldAt_congr fun k hk => by rw [byteAt_append_right b (by omega), Nat.sub_add_comm h]

/-- R182: what a number of `n` bytes reads. -/
theorem ofLe_leBytes (n v : Nat) : ofLe (leBytes n v) = v % 256 ^ n := by
  induction n generalizing v with
  | zero => simp [leBytes, ofLe, Nat.mod_one]
  | succ n ih =>
    rw [leBytes, ofLe, ih, BitVec.toNat_ofNat, pow_succ' 256 n, Nat.mod_mul]

theorem fieldAt_leBytes (n v : Nat) : fieldAt (leBytes n v) 0 n = v % 256 ^ n := by
  have bytes : (bytesAt (leBytes n v) 0 n).toList = leBytes n v := by
    refine List.ext_getElem (by simp) fun k hk hk' => ?_
    simp [bytesAt, byteAt]
  rw [fieldAt, bytes, ofLe_leBytes]

/-! ### A field among others

The rules by which a field is found: the fields before it are skipped, and it is read where it begins. -/

@[simp] theorem byteAt_cons_zero (b : Byte) (l : List Byte) : byteAt (b :: l) 0 = b := rfl

@[simp] theorem byteAt_cons_skip (b : Byte) (l : List Byte) (i : Nat) : byteAt (b :: l) (i + 1) = byteAt l i := rfl

@[simp] theorem fieldAt_cons_skip (b : Byte) (l : List Byte) (i n : Nat) :
    fieldAt (b :: l) (i + 1) n = fieldAt l i n :=
  fieldAt_congr fun k _ => by rw [Nat.add_right_comm, byteAt_cons_skip]

@[simp] theorem fieldAt_leBytes_skip {w v i n : Nat} (l : List Byte) (h : w ≤ i) :
    fieldAt (leBytes w v ++ l) i n = fieldAt l (i - w) n := by
  rw [fieldAt_append_right _ (by simpa using h), length_leBytes]

@[simp] theorem byteAt_leBytes_skip {w v i : Nat} (l : List Byte) (h : w ≤ i) :
    byteAt (leBytes w v ++ l) i = byteAt l (i - w) := by
  rw [byteAt_append_right _ (by simpa using h), length_leBytes]

theorem fieldAt_leBytes_here (w v : Nat) (l : List Byte) :
    fieldAt (leBytes w v ++ l) 0 w = v % 256 ^ w := by
  rw [fieldAt_append_left _ (by simp), fieldAt_leBytes]

/-! A field as wide as the value it carries reads that value. -/

@[simp] theorem fieldAt_line (x : LineNo) (l : List Byte) : fieldAt (leBytes 4 x.toNat ++ l) 0 4 = x.toNat :=
  (fieldAt_leBytes_here ..).trans (Nat.mod_eq_of_lt x.isLt)

@[simp] theorem fieldAt_line_last (x : LineNo) : fieldAt (leBytes 4 x.toNat) 0 4 = x.toNat :=
  (fieldAt_leBytes ..).trans (Nat.mod_eq_of_lt x.isLt)

@[simp] theorem fieldAt_short (x : BitVec 16) (l : List Byte) : fieldAt (leBytes 2 x.toNat ++ l) 0 2 = x.toNat :=
  (fieldAt_leBytes_here ..).trans (Nat.mod_eq_of_lt x.isLt)

@[simp] theorem fieldAt_short_last (x : BitVec 16) : fieldAt (leBytes 2 x.toNat) 0 2 = x.toNat :=
  (fieldAt_leBytes ..).trans (Nat.mod_eq_of_lt x.isLt)

/-- A line that may be absent is carried as zero if so (R184). -/
@[simp] theorem fieldAt_optionLine (x : Option LineNo) (l : List Byte) :
    fieldAt (leBytes 4 (optionNat (x.map (·.toNat))) ++ l) 0 4 = (x.map (·.toNat)).getD 0 := by
  cases x with
  | none => simp [optionNat, fieldAt_leBytes_here]
  | some x => exact fieldAt_line x l

/-! ### Entries of a walk -/

/-- The entries of a walk's results stand one after another, each in its place. -/
theorem fieldAt_flatMap {α : Type} {f : α → List Byte} {w : Nat} (hf : ∀ x, (f x).length = w) {es : List α} {k c n : Nat}
    {x : α} (hx : es[k]? = some x) (hc : c + n ≤ w) (rest : List Byte) :
    fieldAt (es.flatMap f ++ rest) (w * k + c) n = fieldAt (f x) c n := by
  induction es generalizing k with
  | nil => simp at hx
  | cons y ys ih =>
    rw [List.flatMap_cons, List.append_assoc]
    cases k with
    | zero =>
      obtain rfl : y = x := by simpa using hx
      rw [Nat.mul_zero, Nat.zero_add, fieldAt_append_left _ (by rw [hf]; exact hc)]
    | succ k =>
      have place : w * (k + 1) + c - (f y).length = w * k + c := by
        rw [hf, Nat.mul_succ]
        omega
      rw [fieldAt_append_right _ (by rw [hf, Nat.mul_succ]; omega), place]
      exact ih (by simpa using hx)

/-! ### Bits -/

/-- The number whose bits are given, the lowest first. -/
def ofBits : List Bool → Nat
  | [] => 0
  | b :: bs => bit b + 2 * ofBits bs

theorem ofBits_lt (l : List Bool) : ofBits l < 2 ^ l.length := by
  induction l with
  | nil => simp [ofBits]
  | cons b bs ih =>
    rw [ofBits, List.length_cons, pow_succ]
    cases b <;> (simp [bit_eq]; omega)

theorem ofBits_testBit (l : List Bool) : (List.range l.length).map (ofBits l).testBit = l := by
  induction l with
  | nil => rfl
  | cons b bs ih =>
    have low : (ofBits (b :: bs)).testBit 0 = b := by
      cases b <;> simp [ofBits, bit_eq, Nat.testBit_zero, Nat.add_mul_mod_self_left]
    have high (k : Nat) : (ofBits (b :: bs)).testBit (k + 1) = (ofBits bs).testBit k := by
      rw [Nat.testBit_succ]
      congr 1
      cases b <;> simp [ofBits, bit_eq] <;> omega
    rw [List.length_cons, List.range_succ_eq_map, List.map_cons, List.map_map, low]
    exact congrArg (b :: ·) ((List.map_congr_left fun k _ => high k).trans ih)

end Sys2Proof.Machine
end

section
/-! SUPPORT. The packets the bridge sends (O9): their headers, the codes in them, event records, and the fields of each
result block. -/

namespace Sys2Proof.Machine

/-! ### Codes and tables -/

theorem Status.code_table (x : Status) : statusTable[x.code]? = some x ∧ x.code < 256 := by
  cases x <;> exact ⟨rfl, by decide⟩

theorem RefusedReason.code_table (x : RefusedReason) :
    refusalTable[x.code - 1]? = some x ∧ x.code ≠ 0 ∧ x.code < 256 := by
  cases x <;> exact ⟨rfl, by decide, by decide⟩

theorem EventKind.code_table (x : EventKind) : kindTable[x.code - 1]? = some x ∧ x.code ≠ 0 ∧ x.code < 256 := by
  cases x <;> exact ⟨rfl, by decide, by decide⟩

theorem EventOrigin.code_table (x : EventOrigin) :
    originTable[x.code - 1]? = some x ∧ x.code ≠ 0 ∧ x.code < 256 := by
  cases x <;> exact ⟨rfl, by decide, by decide⟩

theorem Reason.code_table (x : Reason) : reasonTable[x.code - 1]? = some x ∧ x.code ≠ 0 ∧ x.code < 256 := by
  cases x <;> exact ⟨rfl, by decide, by decide⟩

/-- R153: the presence bits, one for each optional field of a record. -/
theorem Notice.presence_eq (n : Notice) : n.presence = ofBits
    [n.region.isSome, n.line.isSome, n.physical.isSome, n.requester.isSome, n.origin.isSome, n.reason.isSome,
      n.count.isSome, n.spare.isSome, n.symbol.isSome] := by
  simp only [Notice.presence, ofBits]
  omega

/-! ### Headers -/

/-- R182: the bytes of a header. -/
theorem byteAt_outHeader (kind dest tag status flags r m : Nat) (l : List Byte) :
    byteAt (outHeader kind dest tag status flags r m ++ l) 0 = oneByte kind
      ∧ byteAt (outHeader kind dest tag status flags r m ++ l) 1 = oneByte dest
      ∧ byteAt (outHeader kind dest tag status flags r m ++ l) 2 = oneByte tag
      ∧ byteAt (outHeader kind dest tag status flags r m ++ l) 3 = oneByte status
      ∧ byteAt (outHeader kind dest tag status flags r m ++ l) 4 = oneByte flags
      ∧ byteAt (outHeader kind dest tag status flags r m ++ l) 5 = oneByte r
      ∧ byteAt (outHeader kind dest tag status flags r m ++ l) 6 = oneByte m
      ∧ byteAt (outHeader kind dest tag status flags r m ++ l) 7 = 0 := ⟨rfl, rfl, rfl, rfl, rfl, rfl, rfl, rfl⟩

/-- After the eight bytes of its header a packet carries its body. -/
theorem fieldAt_outHeader_skip (kind dest tag status flags r m : Nat) (l : List Byte) (i n : Nat) :
    fieldAt (outHeader kind dest tag status flags r m ++ l) (i + 8) n = fieldAt l i n := by
  rw [fieldAt_append_right _ (by simp [outHeader])]
  rfl

theorem byteAt_outHeader_skip (kind dest tag status flags r m : Nat) (l : List Byte) (i : Nat) :
    byteAt (outHeader kind dest tag status flags r m ++ l) (8 + i) = byteAt l i := by
  rw [byteAt_append_right _ (by simp [outHeader])]
  congr 1
  simp [outHeader]

theorem byteAt_vector {n : Nat} (v : Vector Byte n) (j : Fin n) : byteAt v.toList j.val = v[j.val] := by
  simp [byteAt]

/-- What a packet carries after its header (R182). -/
def OutPacket.body : OutPacket → List Byte
  | .hello => []
  | .ldata _ _ _ _ data => data.toList
  | .ldone _ _ _ => []
  | .mresp _ _ code outcome result => resultBlock code outcome result
  | .mevent _ record => record.bytes
  | .credit => []

/-- R182: the kind codes of the packets that the bridge sends. -/
def OutPacket.kindCode : OutPacket → Nat
  | .hello => 0x08
  | .ldata _ _ _ _ _ => 0x11
  | .ldone _ _ _ => 0x12
  | .mresp _ _ _ _ _ => 0x14
  | .mevent _ _ => 0x15
  | .credit => 0x16

theorem length_resultBlock (code : Byte) (o : CommandOutcome) (r : Result) : (resultBlock code o r).length = 152 :=
  length_padTo ..

theorem EventRecord.length_bytes (r : EventRecord) : r.bytes.length = 32 := by
  simp [EventRecord.bytes]

theorem OutPacket.length_body (p : OutPacket) : p.body.length + 8 = p.length := by
  cases p with
  | hello => rfl
  | ldata => simp [OutPacket.body, OutPacket.length]
  | ldone => rfl
  | mresp => simp [OutPacket.body, OutPacket.length, length_resultBlock]
  | mevent => simp [OutPacket.body, OutPacket.length, EventRecord.length_bytes]
  | credit => rfl

/-- R182: a packet is its header, with its kind and the credits it returns, and its body. -/
theorem SentPacket.bytes_eq (p : SentPacket) : ∃ dest tag status flags, p.bytes =
    outHeader p.packet.kindCode dest tag status flags p.requestCredits p.managementCredits ++ p.packet.body := by
  obtain ⟨packet, r, m⟩ := p
  cases packet <;> exact ⟨_, _, _, _, rfl⟩

theorem SentPacket.length_bytes (p : SentPacket) : p.bytes.length = p.packet.length := by
  obtain ⟨dest, tag, status, flags, h⟩ := p.bytes_eq
  rw [h, List.length_append, ← p.packet.length_body]
  simp [outHeader, Nat.add_comm]

/-! ### Event records -/

/-- An index that may be absent, in one byte. -/
theorem optionNat_fin_mod {n : Nat} (hn : n ≤ 256) (x : Option (Fin n)) :
    optionNat (x.map (·.val)) % 256 = (x.map (·.val)).getD 0 := by
  cases x with
  | none => rfl
  | some x => exact Nat.mod_eq_of_lt (x.isLt.trans_le hn)

theorem optionByte_toNat {α : Type} (f : α → Byte) (x : Option α) :
    ((x.map f).getD 0).toNat = (x.map fun a => (f a).toNat).getD 0 := by
  cases x <;> rfl

/-- R184: the fields of an event record, and of those that may be absent zero if they are. -/
theorem EventRecord.fields (r : EventRecord) :
    (fieldAt r.bytes 0 2 = r.seq.toNat ∧ fieldAt r.bytes 2 1 = r.notice.kind.code
      ∧ fieldAt r.bytes 3 2 = r.notice.presence)
    ∧ (fieldAt r.bytes 5 1 = (r.notice.region.map (·.val)).getD 0
      ∧ fieldAt r.bytes 6 1 = (r.notice.requester.map (·.1.toNat)).getD 0
      ∧ fieldAt r.bytes 7 1 = (r.notice.requester.map (·.2.toNat)).getD 0 ∧ fieldAt r.bytes 8 4 = r.time.toNat
      ∧ fieldAt r.bytes 12 4 = (r.notice.line.map (·.toNat)).getD 0
      ∧ fieldAt r.bytes 16 4 = (r.notice.physical.map (·.toNat)).getD 0)
    ∧ (fieldAt r.bytes 20 1 = (r.notice.origin.map (·.code)).getD 0
      ∧ fieldAt r.bytes 21 1 = (r.notice.reason.map (·.code)).getD 0
      ∧ fieldAt r.bytes 22 1 = (r.notice.symbol.map (·.val)).getD 0 ∧ fieldAt r.bytes 23 1 = 0
      ∧ fieldAt r.bytes 24 2 = r.notice.count.getD 0 % 65536 ∧ fieldAt r.bytes 26 2 = r.notice.spare.getD 0 % 65536
      ∧ fieldAt r.bytes 28 4 = 0) := by
  have kind := r.notice.kind.code_table.2.2
  have presence : r.notice.presence < 65536 := by
    rw [Notice.presence_eq]
    exact (ofBits_lt _).trans (by simp)
  have origin : (r.notice.origin.map (·.code)).getD 0 < 256 := by
    cases r.notice.origin with
    | none => decide
    | some o => exact o.code_table.2.2
  have reason : (r.notice.reason.map (·.code)).getD 0 < 256 := by
    cases r.notice.reason with
    | none => decide
    | some w => exact w.code_table.2.2
  simp only [EventRecord.bytes, List.append_assoc, List.cons_append, List.nil_append]
  refine ⟨⟨?_, ?_, ?_⟩, ⟨?_, ?_, ?_, ?_, ?_, ?_⟩, ⟨?_, ?_, ?_, ?_, ?_, ?_, ?_⟩⟩
  · simp
  · simpa using Nat.mod_eq_of_lt kind
  · simpa [fieldAt_leBytes_here] using Nat.mod_eq_of_lt presence
  · simpa using optionNat_fin_mod (by decide) r.notice.region
  · simpa using optionByte_toNat (·.1) r.notice.requester
  · simpa using optionByte_toNat (·.2) r.notice.requester
  · simp
  · simp
  · simp
  · exact Eq.trans (by simp [optionNat]) (Nat.mod_eq_of_lt origin)
  · exact Eq.trans (by simp [optionNat]) (Nat.mod_eq_of_lt reason)
  · simpa using optionNat_fin_mod (by decide) r.notice.symbol
  · simp
  · simp [optionNat, fieldAt_leBytes_here]
  · simp [optionNat, fieldAt_leBytes_here]
  · simp [fieldAt_leBytes]

/-! ### Result blocks -/

/-- The results follow the four bytes of the block's head. -/
@[simp] theorem byteAt_resultBlock_skip {code : Byte} {o : CommandOutcome} {r : Result} {i : Nat} (h : i + 4 < 152) :
    byteAt (resultBlock code o r) (i + 4) = byteAt r.bytes i := by
  rw [resultBlock, byteAt_padTo h]
  rfl

@[simp] theorem fieldAt_resultBlock {code : Byte} {o : CommandOutcome} {r : Result} {i n : Nat} (h : i + 4 + n ≤ 152) :
    fieldAt (resultBlock code o r) (i + 4) n = fieldAt r.bytes i n :=
  fieldAt_congr fun k hk => by
    rw [Nat.add_right_comm, byteAt_resultBlock_skip (by omega)]

theorem rightsNat_eq (rights : Vector Rights 16) : rightsNat rights < 2 ^ 32
    ∧ ∀ k : Fin 16, rightsNat rights / 4 ^ k.val % 4 = rights[k.val].code := by
  have digits (l : List Rights) : l.foldr (fun r n => r.code + 4 * n) 0 < 4 ^ l.length
      ∧ ∀ k r, l[k]? = some r → l.foldr (fun r n => r.code + 4 * n) 0 / 4 ^ k % 4 = r.code := by
    induction l with
    | nil => simp
    | cons x xs ih =>
      have hx : x.code < 4 := by cases x <;> decide
      refine ⟨?_, fun k r hk => ?_⟩
      · rw [List.foldr_cons, List.length_cons, pow_succ]
        omega
      · rw [List.foldr_cons]
        cases k with
        | zero =>
          obtain rfl : x = r := by simpa using hk
          rw [pow_zero, Nat.div_one]
          omega
        | succ k =>
          rw [pow_succ', ← Nat.div_div_eq_div_mul, Nat.add_mul_div_left _ _ (by decide), Nat.div_eq_of_lt hx,
            Nat.zero_add]
          exact ih.2 k r (by simpa using hk)
  refine ⟨?_, fun k => ?_⟩
  · have := (digits rights.toList).1
    rwa [Vector.length_toList] at this
  · exact (digits rights.toList).2 k.val _ (by simp)

/-- R184: the entries of a walk stand in its results in places of 16 bytes. -/
theorem fieldAt_walk {α : Type} {f : α → List Byte} (hf : ∀ x, (f x).length = 16) {es : List α} {k c n : Nat} {x : α}
    (hx : es[k]? = some x) (hc : c + n ≤ 16) (total : Nat) (next : Option Nat) (returned : Nat) :
    fieldAt (walkBytes total next returned ++ es.flatMap f) (12 + 16 * k + c) n = fieldAt (f x) c n := by
  have len : (walkBytes total next returned).length = 12 := by simp [walkBytes]
  have place : 12 + 16 * k + c - 12 = 16 * k + c := by omega
  rw [fieldAt_append_right _ (by omega), len, place, ← List.append_nil (es.flatMap f)]
  exact fieldAt_flatMap hf hx hc []

theorem length_historyBytes (x : Nat × HistoryEntry) : (historyBytes x).length = 16 := by
  simp [historyBytes]

theorem length_mapBytes (x : Nat × MapEntry) : (mapBytes x).length = 16 := by
  simp [mapBytes]

/-- The head of a result block (R184). -/
theorem byteAt_resultBlock (code : Byte) (o : CommandOutcome) (r : Result) :
    byteAt (resultBlock code o r) 0 = code ∧ byteAt (resultBlock code o r) 1 = oneByte o.reasonCode
      ∧ byteAt (resultBlock code o r) 2 = 0 ∧ byteAt (resultBlock code o r) 3 = 0 := by
  refine ⟨?_, ?_, ?_, ?_⟩
  all_goals
    rw [resultBlock, byteAt_padTo (by decide)]
    rfl

/-- R184: a block without results is zero after its head. -/
theorem byteAt_resultBlock_of_empty {code : Byte} {o : CommandOutcome} {r : Result} (h : r.bytes = []) {i : Nat}
    (hi : 4 ≤ i) : byteAt (resultBlock code o r) i = 0 := by
  by_cases hl : i < 152
  · rw [resultBlock, byteAt_padTo hl, h, byteAt_of_length_le (by simpa using hi)]
  · rw [byteAt_of_length_le (by rw [length_resultBlock]; omega)]

/-! ### The packets by kind -/

section
variable {p : SentPacket} {dest tag : Byte}

theorem SentPacket.ldata_fields {x : Status} {c : Bool} {d : Data} (h : p.packet = .ldata dest tag x c d) :
    byteAt p.bytes 1 = dest ∧ byteAt p.bytes 2 = tag ∧ statusTable[fieldAt p.bytes 3 1]? = some x
      ∧ (byteAt p.bytes 4).getLsbD 0 = c ∧ ∀ j : Fin 64, byteAt p.bytes (8 + j.val) = d[j.val] := by
  have bytes : p.bytes = outHeader 0x11 dest.toNat tag.toNat x.code (correctedFlag c) p.requestCredits
      p.managementCredits ++ d.toList := by
    simp only [SentPacket.bytes, h]
  obtain ⟨-, hd, ht, hx, hc, -⟩ := byteAt_outHeader 0x11 dest.toNat tag.toNat x.code (correctedFlag c)
    p.requestCredits p.managementCredits d.toList
  rw [bytes]
  refine ⟨by rw [hd, oneByte_byte], by rw [ht, oneByte_byte], ?_, ?_, fun j => ?_⟩
  · rw [fieldAt_one, hx, oneByte_toNat, Nat.mod_eq_of_lt x.code_table.2]
    exact x.code_table.1
  · rw [hc]
    cases c <;> rfl
  · rw [byteAt_outHeader_skip, byteAt_vector]

theorem SentPacket.ldone_fields {x : Status} (h : p.packet = .ldone dest tag x) :
    byteAt p.bytes 1 = dest ∧ byteAt p.bytes 2 = tag ∧ statusTable[fieldAt p.bytes 3 1]? = some x := by
  have bytes : p.bytes = outHeader 0x12 dest.toNat tag.toNat x.code 0 p.requestCredits p.managementCredits ++ [] := by
    simp only [SentPacket.bytes, h, List.append_nil]
  obtain ⟨-, hd, ht, hx, -⟩ := byteAt_outHeader 0x12 dest.toNat tag.toNat x.code 0 p.requestCredits
    p.managementCredits []
  rw [bytes]
  refine ⟨by rw [hd, oneByte_byte], by rw [ht, oneByte_byte], ?_⟩
  rw [fieldAt_one, hx, oneByte_toNat, Nat.mod_eq_of_lt x.code_table.2]
  exact x.code_table.1

theorem SentPacket.mresp_fields {code : Byte} {o : CommandOutcome} {r : Result} (h : p.packet = .mresp dest tag code o r) :
    byteAt p.bytes 1 = dest ∧ byteAt p.bytes 2 = tag ∧ fieldAt p.bytes 3 1 = o.code
      ∧ p.bytes.drop 8 = resultBlock code o r := by
  have bytes : p.bytes = outHeader 0x14 dest.toNat tag.toNat o.code 0 p.requestCredits p.managementCredits
      ++ resultBlock code o r := by
    simp only [SentPacket.bytes, h]
  obtain ⟨-, hd, ht, hx, -⟩ := byteAt_outHeader 0x14 dest.toNat tag.toNat o.code 0 p.requestCredits
    p.managementCredits (resultBlock code o r)
  rw [bytes]
  refine ⟨by rw [hd, oneByte_byte], by rw [ht, oneByte_byte], ?_, rfl⟩
  rw [fieldAt_one, hx]
  cases o <;> rfl

/-- An MEVENT carries its record after its header. -/
theorem SentPacket.mevent_fields {e : EventRecord} (h : p.packet = .mevent dest e) :
    byteAt p.bytes 1 = dest ∧ byteAt p.bytes 2 = 0
      ∧ ∀ i n, fieldAt p.bytes (i + 8) n = fieldAt e.bytes i n := by
  have bytes : p.bytes = outHeader 0x15 dest.toNat 0 0 0 p.requestCredits p.managementCredits ++ e.bytes := by
    simp only [SentPacket.bytes, h]
    rfl
  obtain ⟨-, hd, ht, -⟩ := byteAt_outHeader 0x15 dest.toNat 0 0 0 p.requestCredits p.managementCredits e.bytes
  rw [bytes]
  exact ⟨by rw [hd, oneByte_byte], ht, fun i n => fieldAt_outHeader_skip ..⟩

end

/-- A code that may be absent: 0 if so, and else the place of its value in its table (R184). -/
theorem code_of_field {α : Type} {f : α → Nat} {table : List α} (hf : ∀ a, table[f a - 1]? = some a ∧ f a ≠ 0)
    {x : Option α} {n : Nat} (hn : n = (x.map f).getD 0) :
    (x = none → n = 0) ∧ ∀ a, x = some a → n ≠ 0 ∧ table[n - 1]? = some a := by
  refine ⟨fun h => by simp [hn, h], fun a h => ?_⟩
  obtain rfl : n = f a := by simp [hn, h]
  exact ⟨(hf a).2, (hf a).1⟩

end Sys2Proof.Machine
end

section
/-! SUPPORT. The fields of each result block (O9). -/

namespace Sys2Proof.Machine

section
variable (code : Byte) (o : CommandOutcome)

theorem resultBlock_region (x : Region) :
    let g := fieldAt (resultBlock code o (.region (some x)))
    g 4 1 = x.phase.code ∧ g 5 1 = x.mode.code ∧ g 6 1 = (if x.patrol then 1 else 0) ∧ g 7 1 = x.burst % 256
      ∧ g 8 1 = x.threshold % 256 ∧ g 9 1 = reportFlags x.reportCorrections x.reportPasses
      ∧ g 10 1 = (if x.fixed then 1 else 0) ∧ g 12 4 = x.base.toNat ∧ g 16 4 = x.limit.toNat
      ∧ (∀ k : Fin 16, g 20 4 / 4 ^ k.val % 4 = x.rights[k.val].code) ∧ g 24 4 = x.stats.corrected.toNat ∧ g 28 4 = x.stats.uncorrectable.toNat
      ∧ g 32 4 = x.stats.void.toNat ∧ g 36 4 = x.stats.refused.toNat ∧ g 40 4 = x.cursor.toNat
      ∧ g 44 2 = x.passes.toNat := by
  have phase : x.phase.code % 256 = x.phase.code := by cases x.phase <;> rfl
  have mode : x.mode.code % 256 = x.mode.code := by cases x.mode <;> rfl
  have reports : reportFlags x.reportCorrections x.reportPasses % 256
      = reportFlags x.reportCorrections x.reportPasses := by
    cases x.reportCorrections <;> cases x.reportPasses <;> rfl
  obtain ⟨small, digits⟩ := rightsNat_eq x.rights
  have rights (l : List Byte) : fieldAt (leBytes 4 (rightsNat x.rights) ++ l) 0 4 = rightsNat x.rights :=
    (fieldAt_leBytes_here ..).trans (Nat.mod_eq_of_lt small)
  dsimp only
  simp [Result.bytes, regionBytes, phase, mode, reports, rights, digits]

theorem resultBlock_spare (v : SpareView) :
    let g := fieldAt (resultBlock code o (.spare v))
    g 4 1 = (if v.area.isSome then 1 else 0) ∧ g 5 1 = (if v.unavailable then 1 else 0)
      ∧ g 8 4 = (v.area.map (·.1.toNat)).getD 0 ∧ g 12 2 = (v.area.map (·.2)).getD 0 % 65536
      ∧ g 14 2 = v.counts.free % 65536 ∧ g 16 2 = v.counts.reserved % 65536 ∧ g 18 2 = v.counts.inUse % 65536
      ∧ g 20 2 = v.counts.defective % 65536 := by
  have base (l : List Byte) : fieldAt (leBytes 4 (optionNat (v.area.map (·.1.toNat))) ++ l) 0 4
      = (v.area.map (·.1.toNat)).getD 0 := by
    cases v.area with
    | none => exact fieldAt_optionLine none l
    | some a => exact fieldAt_optionLine (some a.1) l
  have count : optionNat (v.area.map (·.2)) = (v.area.map (·.2)).getD 0 := rfl
  dsimp only
  simp [Result.bytes, SpareCounts.bytes, fieldAt_leBytes_here 2, fieldAt_leBytes, base, count]

theorem resultBlock_device (v : DeviceView) :
    let g := fieldAt (resultBlock code o (.device v))
    g 4 1 = (if v.memoryLink = .up then 1 else 0) ∧ g 5 1 = (if v.capacity.isSome then 1 else 0)
      ∧ g 6 1 = v.announced.getD 0 % 256 ∧ g 7 1 = v.inUse % 256 ∧ (∀ x, v.capacity = some x → g 8 8 = x % 2 ^ 64)
      ∧ g 16 1 = v.requesterPool % 256 ∧ g 17 1 = v.patrolPool % 256 ∧ g 18 1 = v.copyPool % 256
      ∧ g 19 1 = v.expired % 256 ∧ g 20 1 = (if v.frozen then 1 else 0) ∧ g 21 1 = v.manager.val
      ∧ g 22 1 = (if v.spareDefined then 1 else 0) ∧ g 23 1 = (if v.requesterLink = .up then 1 else 0)
      ∧ g 24 2 = v.counts.free % 65536 ∧ g 26 2 = v.counts.reserved % 65536 ∧ g 28 2 = v.counts.inUse % 65536
      ∧ g 30 2 = v.counts.defective % 65536 ∧ g 32 1 = v.retireQueue % 256 ∧ g 33 1 = v.repairQueue % 256
      ∧ g 34 1 = v.eventQueue % 256 ∧ g 36 4 = v.time.toNat := by
  have link (x : LinkState) : x.code % 256 = if x = .up then 1 else 0 := by cases x <;> rfl
  have manager : v.manager.val % 256 = v.manager.val := Nat.mod_eq_of_lt (v.manager.isLt.trans (by decide))
  have announced : optionNat v.announced = v.announced.getD 0 := rfl
  have capacity (x : Nat) : optionNat (some x) = x := rfl
  dsimp only
  simp +contextual [Result.bytes, DeviceView.bytes, SpareCounts.bytes, fieldAt_leBytes_here 2, fieldAt_leBytes_here 8,
    link, manager, announced, capacity]

/-- The results of the commands that answer a number or two, or a line. -/
theorem resultBlock_numbers :
    let f (r : Result) := fieldAt (resultBlock code o r)
    (∀ n, f (.timeout n) 4 4 = n % 2 ^ 32)
      ∧ (∀ e n, f (.patrol e n) 4 1 = (if e then 1 else 0) ∧ f (.patrol e n) 8 4 = n % 2 ^ 32)
      ∧ (∀ n, f (.credits n) 4 1 = n % 256) ∧ (∀ m : Fin 16, f (.manager m) 4 1 = m.val)
      ∧ ∀ n k, f (.cleared n k) 4 2 = n % 65536 ∧ f (.cleared n k) 6 2 = k % 65536 := by
  have manager (m : Fin 16) : m.val % 256 = m.val := Nat.mod_eq_of_lt (m.isLt.trans (by decide))
  dsimp only
  simp [Result.bytes, fieldAt_leBytes, fieldAt_leBytes_here, manager]

/-- The results of the commands that answer a line. -/
theorem resultBlock_lines :
    let f (r : Result) := fieldAt (resultBlock code o r)
    (∀ (l : LineNo) n, f (.spareArea l n) 8 4 = l.toNat ∧ f (.spareArea l n) 12 2 = n % 65536)
      ∧ (∀ i l, f (.fill i l) 4 1 = i.val ∧ ∀ x, l = some x → f (.fill i l) 8 4 = x.toNat)
      ∧ ∀ (l : LineNo) n, f (.retirement l n) 8 4 = l.toNat ∧ f (.retirement l n) 12 2 = n % 65536 := by
  have region (i : Fin 32) : i.val % 256 = i.val := Nat.mod_eq_of_lt (i.isLt.trans (by decide))
  have line (x : Nat) : optionNat (some x) = x := rfl
  dsimp only
  simp +contextual [Result.bytes, fieldAt_leBytes 2, region, line]

/-- R184: the head of a walk's results and its entries, 16 bytes each. -/
theorem resultBlock_walk {α : Type} {f : α → List Byte} (hf : ∀ x, (f x).length = 16) {r : Result} {total : Nat}
    {next : Option Nat} {es : List α} (hr : r.bytes = walkBytes total next es.length ++ es.flatMap f)
    (hes : es.length ≤ 8) :
    let g := fieldAt (resultBlock code o r)
    g 4 2 = total % 65536 ∧ g 6 2 = next.getD 0xFFFF % 65536 ∧ g 8 1 = es.length
      ∧ ∀ k x, es[k]? = some x → ∀ c n, c + n ≤ 16 → g (16 + 16 * k + c) n = fieldAt (f x) c n := by
  have count : es.length % 256 = es.length := Nat.mod_eq_of_lt (by omega)
  refine ⟨?_, ?_, ?_, fun k x hx c n hc => ?_⟩
  · simp [hr, walkBytes, fieldAt_leBytes_here 2]
  · simp [hr, walkBytes, fieldAt_leBytes_here 2]
  · simp [hr, walkBytes, count]
  · have hk := (List.getElem?_eq_some_iff.1 hx).1
    have place : 16 + 16 * k + c = 12 + 16 * k + c + 4 := by omega
    rw [place, fieldAt_resultBlock (by omega), hr, fieldAt_walk hf hx hc]

end

theorem fieldAt_historyBytes (slot : Nat) (h : HistoryEntry) :
    let g := fieldAt (historyBytes (slot, h))
    g 0 2 = slot % 65536 ∧ g 2 4 = h.line.toNat ∧ g 6 1 = h.region.val ∧ g 7 1 = h.count % 256 ∧ g 8 1 = h.symbol.val
      ∧ g 9 1 = h.origin.code ∧ g 10 1 = h.retire.code ∧ g 11 1 = 0 ∧ g 12 4 = h.updated.toNat := by
  have region : h.region.val % 256 = h.region.val := Nat.mod_eq_of_lt (h.region.isLt.trans (by decide))
  have symbol : h.symbol.val % 256 = h.symbol.val := Nat.mod_eq_of_lt (h.symbol.isLt.trans (by decide))
  have origin : h.origin.code % 256 = h.origin.code := by cases h.origin <;> rfl
  have retire : h.retire.code % 256 = h.retire.code := by cases h.retire <;> rfl
  dsimp only
  simp [historyBytes, fieldAt_leBytes_here 2, region, symbol, origin, retire]

theorem fieldAt_mapBytes (place : Nat) (m : MapEntry) :
    let g := fieldAt (mapBytes (place, m))
    g 0 1 = place % 256 ∧ g 1 4 = m.line.toNat ∧ g 5 2 = m.spare % 65536
      ∧ (∀ x, m.pending = some x → g 7 2 = x % 65536) ∧ g 9 1 = m.state.code ∧ g 10 1 = (if m.auto then 6 else 7)
      ∧ g 11 1 = m.flags ∧ ∀ x, m.time = some x → g 12 4 = x.toNat := by
  have state : m.state.code % 256 = m.state.code := by cases m.state <;> rfl
  have origin : (if m.auto then EventOrigin.auto.code else EventOrigin.manual.code) % 256 = if m.auto then 6 else 7 := by
    cases m.auto <;> rfl
  have bits : m.flags = ofBits [m.void, m.pending.isSome, m.time.isSome] := by
    simp only [MapEntry.flags, ofBits]
    omega
  have flags : m.flags % 256 = m.flags := Nat.mod_eq_of_lt (bits ▸ (ofBits_lt _).trans (by simp))
  have present (x : Nat) : optionNat (some x) = x := rfl
  dsimp only
  simp +contextual [mapBytes, fieldAt_leBytes_here 2, state, origin, flags, present]

/-! The walks answer entries of these two forms: a field stands as far from its entry in the block as in the entry. -/

theorem resultBlock_history (code : Byte) (o : CommandOutcome) (total : Nat) (next : Option Nat)
    {es : List (Nat × HistoryEntry)} (hes : es.length ≤ 8) :
    let g := fieldAt (resultBlock code o (.history total next es))
    g 4 2 = total % 65536 ∧ g 6 2 = next.getD 0xFFFF % 65536 ∧ g 8 1 = es.length
      ∧ ∀ k slot h, es[k]? = some (slot, h) →
        let at' := 16 + 16 * k
        g at' 2 = slot % 65536 ∧ g (at' + 2) 4 = h.line.toNat ∧ g (at' + 6) 1 = h.region.val
        ∧ g (at' + 7) 1 = h.count % 256 ∧ g (at' + 8) 1 = h.symbol.val ∧ g (at' + 9) 1 = h.origin.code
        ∧ g (at' + 10) 1 = h.retire.code ∧ g (at' + 11) 1 = 0 ∧ g (at' + 12) 4 = h.updated.toNat := by
  obtain ⟨htotal, hnext, hcount, entry⟩ :=
    resultBlock_walk code o length_historyBytes (r := .history total next es) rfl hes
  refine ⟨htotal, hnext, hcount, fun k slot h hk => ?_⟩
  have entry := entry k _ hk
  have first : fieldAt (resultBlock code o (.history total next es)) (16 + 16 * k) 2 = fieldAt (historyBytes (slot, h)) 0 2 :=
    entry 0 2 (by decide)
  dsimp only
  rw [first, entry 2 4 (by decide), entry 6 1 (by decide), entry 7 1 (by decide), entry 8 1 (by decide),
    entry 9 1 (by decide), entry 10 1 (by decide), entry 11 1 (by decide), entry 12 4 (by decide)]
  exact fieldAt_historyBytes slot h

theorem resultBlock_retireMap (code : Byte) (o : CommandOutcome) (total : Nat) (next : Option Nat)
    {es : List (Nat × MapEntry)} (hes : es.length ≤ 8) :
    let g := fieldAt (resultBlock code o (.retireMap total next es))
    g 4 2 = total % 65536 ∧ g 6 2 = next.getD 0xFFFF % 65536 ∧ g 8 1 = es.length
      ∧ ∀ k place m, es[k]? = some (place, m) →
        let at' := 16 + 16 * k
        g at' 1 = place % 256 ∧ g (at' + 1) 4 = m.line.toNat ∧ g (at' + 5) 2 = m.spare % 65536
        ∧ (∀ x, m.pending = some x → g (at' + 7) 2 = x % 65536) ∧ g (at' + 9) 1 = m.state.code
        ∧ g (at' + 10) 1 = (if m.auto then 6 else 7) ∧ g (at' + 11) 1 = m.flags
        ∧ ∀ x, m.time = some x → g (at' + 12) 4 = x.toNat := by
  obtain ⟨htotal, hnext, hcount, entry⟩ :=
    resultBlock_walk code o length_mapBytes (r := .retireMap total next es) rfl hes
  refine ⟨htotal, hnext, hcount, fun k place m hk => ?_⟩
  have entry := entry k _ hk
  have first : fieldAt (resultBlock code o (.retireMap total next es)) (16 + 16 * k) 1 = fieldAt (mapBytes (place, m)) 0 1 :=
    entry 0 1 (by decide)
  dsimp only
  rw [first, entry 1 4 (by decide), entry 5 2 (by decide), entry 7 2 (by decide),
    entry 9 1 (by decide), entry 10 1 (by decide), entry 11 1 (by decide), entry 12 4 (by decide)]
  exact fieldAt_mapBytes place m

end Sys2Proof.Machine
end

section
/-! SUPPORT. What the packets carry after their headers (O9): the record of an MEVENT, and the line operations of the
memory. -/

namespace Sys2Proof.Machine

/-! ### The packets to the requesters -/

theorem SentPacket.header (p : SentPacket) :
    byteAt p.bytes 5 = oneByte p.requestCredits ∧ byteAt p.bytes 6 = oneByte p.managementCredits
      ∧ byteAt p.bytes 7 = 0 ∧ byteAt p.bytes 0 = oneByte p.packet.kindCode := by
  obtain ⟨dest, tag, status, flags, h⟩ := p.bytes_eq
  obtain ⟨h0, -, -, -, -, h5, h6, h7⟩ := byteAt_outHeader p.packet.kindCode dest tag status flags p.requestCredits
    p.managementCredits p.packet.body
  rw [h]
  exact ⟨h5, h6, h7, h0⟩

/-- R184: the fields of the record that an MEVENT carries. -/
theorem SentPacket.record_fields {p : SentPacket} {dest : Byte} {e : EventRecord} (h : p.packet = .mevent dest e) :
    let f := fieldAt p.bytes
    (f 8 2 = e.seq.toNat ∧ f 10 1 ≠ 0 ∧ kindTable[f 10 1 - 1]? = some e.notice.kind)
    ∧ ((List.range 9).map (f 11 2).testBit =
        [e.notice.region.isSome, e.notice.line.isSome, e.notice.physical.isSome, e.notice.requester.isSome,
          e.notice.origin.isSome, e.notice.reason.isSome, e.notice.count.isSome, e.notice.spare.isSome,
          e.notice.symbol.isSome]
      ∧ f 11 2 < 512)
    ∧ (f 13 1 = (e.notice.region.map (·.val)).getD 0 ∧ f 14 1 = (e.notice.requester.map (·.1.toNat)).getD 0
      ∧ f 15 1 = (e.notice.requester.map (·.2.toNat)).getD 0 ∧ f 16 4 = e.time.toNat
      ∧ f 20 4 = (e.notice.line.map (·.toNat)).getD 0 ∧ f 24 4 = (e.notice.physical.map (·.toNat)).getD 0)
    ∧ ((e.notice.origin = none → f 28 1 = 0)
      ∧ ∀ x, e.notice.origin = some x → f 28 1 ≠ 0 ∧ originTable[f 28 1 - 1]? = some x)
    ∧ ((e.notice.reason = none → f 29 1 = 0)
      ∧ ∀ w, e.notice.reason = some w → f 29 1 ≠ 0 ∧ reasonTable[f 29 1 - 1]? = some w)
    ∧ (f 30 1 = (e.notice.symbol.map (·.val)).getD 0 ∧ f 31 1 = 0 ∧ f 32 2 = e.notice.count.getD 0 % 65536
      ∧ f 34 2 = e.notice.spare.getD 0 % 65536 ∧ f 36 4 = 0) := by
  obtain ⟨-, -, field⟩ := p.mevent_fields h
  obtain ⟨⟨seq, kind, presence⟩, middle, ⟨origin, reason, rest⟩⟩ := e.fields
  obtain ⟨inTable, pos, -⟩ := e.notice.kind.code_table
  have presence : fieldAt p.bytes 11 2 = ofBits _ := ((field 3 2).trans presence).trans e.notice.presence_eq
  have kind : fieldAt p.bytes 10 1 = e.notice.kind.code := (field 2 1).trans kind
  have origin := code_of_field (fun x => ⟨x.code_table.1, x.code_table.2.1⟩) ((field 20 1).trans origin)
  have reason := code_of_field (fun x => ⟨x.code_table.1, x.code_table.2.1⟩) ((field 21 1).trans reason)
  dsimp only
  rw [kind, presence]
  refine ⟨⟨(field 0 2).trans seq, pos, inTable⟩, ⟨ofBits_testBit _, (ofBits_lt _).trans_eq (by simp)⟩, ?_, origin, reason, ?_⟩
  · rw [field 5, field 6, field 7, field 8, field 12, field 16]
    exact middle
  · rw [field 22, field 23, field 24, field 26, field 28]
    exact rest

/-! ### The packets to the memory -/

theorem MemoryPacket.header (p : MemoryPacket) :
    p.bytes.length = p.length ∧ byteAt p.bytes 1 = 0 ∧ byteAt p.bytes 7 = 0 := by
  cases p with
  | hello => exact ⟨rfl, rfl, rfl⟩
  | sread tag l => exact ⟨rfl, rfl, rfl⟩
  | swrite tag l x => exact ⟨by simp [MemoryPacket.bytes, MemoryPacket.length, outHeader], rfl, rfl⟩

/-- R182: what the packet of a line operation carries: its header, the line, and what is stored there. -/
def operationBytes (kind : Nat) (tag : Fin 64) (l : LineNo) (stored : List Byte) : List Byte :=
  outHeader kind 0 tag.val 0 0 0 0 ++ (leBytes 4 l.toNat ++ (leBytes 4 0 ++ stored))

theorem MemoryPacket.bytes_sread (tag : Fin 64) (l : LineNo) :
    (MemoryPacket.sread tag l).bytes = operationBytes 0x21 tag l [] := by
  simp only [MemoryPacket.bytes, operationBytes, List.append_assoc, List.append_nil]

theorem MemoryPacket.bytes_swrite (tag : Fin 64) (l : LineNo) (x : StoredLine) :
    (MemoryPacket.swrite tag l x).bytes = operationBytes 0x22 tag l x.toList := by
  simp only [MemoryPacket.bytes, operationBytes, List.append_assoc]

theorem fieldAt_operationBytes (kind : Nat) (tag : Fin 64) (l : LineNo) (stored : List Byte) :
    let g := fieldAt (operationBytes kind tag l stored)
    g 2 1 = tag.val ∧ g 8 4 = l.toNat ∧ g 12 4 = 0 := by
  have tag_mod : tag.val % 256 = tag.val := Nat.mod_eq_of_lt (tag.isLt.trans (by decide))
  dsimp only [operationBytes]
  rw [fieldAt_outHeader_skip _ _ _ _ _ _ _ _ 0, fieldAt_outHeader_skip _ _ _ _ _ _ _ _ 4]
  refine ⟨?_, ?_, ?_⟩
  · rw [fieldAt_one, (byteAt_outHeader ..).2.2.1, oneByte_toNat, tag_mod]
  · simp
  · simp [fieldAt_leBytes_here]

theorem byteAt_operationBytes (kind : Nat) (tag : Fin 64) (l : LineNo) (stored : List Byte) (j : Nat) :
    byteAt (operationBytes kind tag l stored) (16 + j) = byteAt stored j := by
  rw [operationBytes, ← List.append_assoc, ← List.append_assoc, byteAt_append_right _ (by simp [outHeader])]
  congr 1
  simp [outHeader]

/-- A map entry's flags as R184 numbers them. -/
theorem MapEntry.flags_eq (m : MapEntry) : m.flags
    = (if m.void then 1 else 0) + (if m.pending.isSome then 2 else 0) + (if m.time.isSome then 4 else 0) := by
  simp only [MapEntry.flags, bit_eq, mul_ite, mul_one, mul_zero]

end Sys2Proof.Machine
end

section
/-! PROOF. O9: the packets the bridge sends have the layout of R182 and R184. -/

namespace Sys2Proof.Machine

/-- Settles O9: the headers, the event records, the head and the fields of each result block, and the packets for the
memory, each by the lemma about its bytes. -/
theorem sentPacketsHaveTheirFixedLayout : Obligations.SentPacketsHaveTheirFixedLayout := by
  unfold Obligations.SentPacketsHaveTheirFixedLayout
  intro or0
  refine ⟨fun p => ?packet, fun code o r => ?block, fun code o => ?result, fun p => ?memory⟩
  case packet =>
    obtain ⟨requests, management, last, kind⟩ := p.header
    refine ⟨p.length_bytes, requests, management, last, kind.trans (by cases p.packet <;> rfl),
      fun dest tag x c d h => p.ldata_fields h, fun dest tag x h => p.ldone_fields h, fun dest tag code o r h => ?_,
      fun dest e h => ?_⟩
    · obtain ⟨hd, ht, outcome, block⟩ := p.mresp_fields h
      exact ⟨hd, ht, outcome.trans (by cases o <;> rfl), block⟩
    · obtain ⟨hd, ht, -⟩ := p.mevent_fields h
      obtain ⟨⟨seq, pos, kind⟩, ⟨bits, small⟩, ⟨region, who, tag, time, line, physical⟩, ⟨origin, origin'⟩,
        ⟨reason, reason'⟩, rest⟩ := p.record_fields h
      exact ⟨hd, ht, seq, pos, kind, bits, small, region, who, tag, time, line, physical, origin, origin', reason,
        reason', rest⟩
  case block =>
    obtain ⟨h0, h1, h2, h3⟩ := byteAt_resultBlock code o r
    refine ⟨length_resultBlock code o r, h0, h2, h3, ?_, ?_, ?_, ?_⟩
    · rintro (rfl | rfl) <;> exact h1
    · rintro w rfl
      obtain ⟨inTable, pos, small⟩ := w.code_table
      rw [fieldAt_one, h1, oneByte_toNat, CommandOutcome.reasonCode, Nat.mod_eq_of_lt small]
      exact ⟨pos, inTable⟩
    · rintro w - rfl i hi
      exact byteAt_resultBlock_of_empty rfl hi
    · rintro rfl i hi - -
      exact byteAt_resultBlock_of_empty rfl hi
  case result =>
    obtain ⟨timeout, patrol, credits, manager, cleared⟩ := resultBlock_numbers code o
    obtain ⟨spareArea, fill, retirement⟩ := resultBlock_lines code o
    refine ⟨fun x => ?_, fun total next es hes => ?_, fun total next es hes => ?_, resultBlock_spare code o,
      resultBlock_device code o, timeout, patrol, credits, manager, spareArea, fill, retirement, cleared⟩
    · obtain ⟨phase, mode, patrol, burst, threshold, reports, fixed, base, limit, rights, rest⟩ :=
        resultBlock_region code o x
      refine ⟨phase.trans (by cases x.phase <;> rfl), mode.trans (by cases x.mode <;> rfl), patrol, burst, threshold,
        reports.trans (by cases x.reportCorrections <;> cases x.reportPasses <;> rfl), fixed, base, limit,
        fun k => (rights k).trans (by cases x.rights[k.val] <;> rfl), rest⟩
    · obtain ⟨htotal, hnext, hcount, entry⟩ := resultBlock_history code o total next hes
      refine ⟨htotal, hnext, hcount, fun k slot h hk => ?_⟩
      obtain ⟨hslot, line, region, count, symbol, origin, retire, rest⟩ := entry k slot h hk
      exact ⟨hslot, line, region, count, symbol, origin.trans (by cases h.origin <;> rfl),
        retire.trans (by cases h.retire <;> rfl), rest⟩
    · obtain ⟨htotal, hnext, hcount, entry⟩ := resultBlock_retireMap code o total next hes
      refine ⟨htotal, hnext, hcount, fun k place m hk => ?_⟩
      obtain ⟨hplace, line, spare, pending, state, auto, flags, time⟩ := entry k place m hk
      exact ⟨hplace, line, spare, pending, state.trans (by cases m.state <;> rfl), auto, flags.trans m.flags_eq, time⟩
  case memory =>
    obtain ⟨length, h1, h7⟩ := p.header
    refine ⟨length, by cases p <;> rfl, h1, h7, ?_, ?_⟩
    · rintro tag l rfl
      rw [MemoryPacket.bytes_sread]
      exact fieldAt_operationBytes ..
    · rintro tag l x rfl
      rw [MemoryPacket.bytes_swrite]
      obtain ⟨htag, line, zero⟩ := fieldAt_operationBytes 0x22 tag l x.toList
      exact ⟨htag, line, zero, fun j => (byteAt_operationBytes ..).trans (byteAt_vector x j)⟩

end Sys2Proof.Machine
end

section
/-! SUPPORT. The ports stay in order (O56): an operation that hands packets keeps the law of the requester port, and most
operations leave alone all that the law of the memory port speaks of. -/

namespace Sys2Proof.Machine

/-! ### The requester port: packets that are handed -/

namespace RequesterPort.Sound
variable {s : State} (hs : s.port.Sound)
include hs

/-- R180: what is handed joins the transmit order of a port that is UP, and of no other. -/
theorem hand (x : OutPacket) : (s.hand x).port.Sound where
  requests := by simpa using hs.requests
  commands := by simpa using hs.commands
  down hd := by
    have hd : s.port.link = .down := by simpa using hd
    simpa [State.hand, hd] using hs.down hd

theorem handCredit : s.handCredit.port.Sound := by
  unfold State.handCredit
  split
  · exact hs.hand _
  · exact hs

theorem respond (r t : Byte) (k : Kind) (x : Status) (b : Bool) (d : Data) : (s.respond r t k x b d).port.Sound := by
  cases k <;> exact hs.hand _

theorem respondEntry (k : Ticket) (x : Status) (b : Bool) (d : Data) : (s.respondEntry k x b d).port.Sound := by
  unfold State.respondEntry
  split
  · exact hs
  · exact hs.respond ..

/-! ### Steps of the bridge's own -/

theorem eventDelivery : s.eventDelivery.port.Sound where
  requests := by simpa using hs.requests
  commands := by simpa using hs.commands
  down hd := by
    have hd : s.port.link = .down := by simpa using hd
    simpa [State.eventDelivery, State.deliverable, hd] using hs.down hd

theorem decideRequest (q : Request) (i : Fin 64) : (s.decideRequest q i).port.Sound := by
  have refused {t : State} (h : t.port = s.port) (x : Status) : (t.refuseRequest q x).port.Sound :=
    respond (s := t) (by rwa [h]) ..
  unfold State.decideRequest
  (repeat' split)
  · exact refused rfl _
  · exact refused rfl _
  · exact refused rfl _
  · exact refused (by simp) _
  · exact refused rfl _
  · exact refused rfl _
  · exact refused (by simp) _
  · simpa using hs

/-- R174: a port that holds something is UP. -/
theorem up (h : s.port.requests ≠ [] ∨ s.port.commands ≠ []) : s.port.link = .up := by
  cases hl : s.port.link with
  | up => rfl
  | down =>
    obtain ⟨requests, commands, -⟩ := hs.down hl
    simp [requests, commands] at h

/-- R50: the credit of a request that is taken is owed. -/
theorem acceptance : s.acceptance.port.Sound := by
  unfold State.acceptance
  split
  · rename_i q rest i hq _
    have within := hs.requests
    have taken : (s.takeRequest rest).port.Sound :=
      { requests := by simp [hq] at within; simp [State.takeRequest]; omega
        commands := hs.commands
        down := fun hd => by simp [State.takeRequest, hs.up (by simp [hq])] at hd }
    exact (taken.decideRequest q i).handCredit
  · exact hs

/-- R164: the credit of a command that is taken is owed. -/
theorem serveCommand : s.serveCommand.port.Sound := by
  unfold State.serveCommand
  split
  · rename_i c rest hc
    have within := hs.commands
    have taken : (s.takeCommand rest).port.Sound :=
      { requests := hs.requests
        commands := by simp [hc] at within; simp [State.takeCommand]; omega
        down := fun hd => by simp [State.takeCommand, hs.up (by simp [hc])] at hd }
    have processed : ((s.takeCommand rest).process c).state.port = (s.takeCommand rest).port := by
      unfold State.process
      (repeat' split)
      · exact commandOf_port _ _ _ ‹_› _
      · rfl
      · rfl
    exact handCredit (hand (s := ((s.takeCommand rest).process c).state) (by rwa [processed]) _)
  · exact hs

/-! ### The requester link -/

theorem requesterHello : s.requesterHello.port.Sound := by
  unfold State.requesterHello
  split
  · exact hs
  · exact hand (s := { s with port := { s.port with link := .up } }) ⟨hs.requests, hs.commands, nofun⟩ _

/-- R181: a port whose link has fallen holds nothing. -/
theorem requesterFall (w : Reason) : (s.requesterFall w).port.Sound := by
  unfold State.requesterFall
  split
  · exact hs
  · have fallen : s.port.fall.Sound := ⟨Nat.zero_le _, Nat.zero_le _, fun _ => ⟨rfl, rfl, rfl, rfl, rfl⟩⟩
    simpa using fallen

theorem violation (w : Reason) : (s.violation w).port.Sound := by
  unfold State.violation
  split
  · exact hs
  · exact requesterFall (s := s.raise _) hs _

/-- R177: a request joins its queue on a credit alone. -/
theorem requestArrives (q : Request) : (s.requestArrives q).port.Sound := by
  unfold State.requestArrives
  split
  · exact hs
  · rename_i hl
    split
    · exact ⟨by simp; omega, hs.commands, fun hd => by simp [hl] at hd⟩
    · exact hs.violation _

theorem commandArrives (c : Command) : (s.commandArrives c).port.Sound := by
  unfold State.commandArrives
  split
  · exact hs
  · rename_i hl
    split
    · exact ⟨hs.requests, by simp; omega, fun hd => by simp [hl] at hd⟩
    · exact hs.violation _

theorem requesterBad (k : Byte) (n : Nat) : (s.requesterBad k n).port.Sound := by
  unfold State.requesterBad
  (repeat' split)
  · exact hs.requesterHello
  · exact hs
  · exact hs
  · exact hs.violation _
  · exact hs.violation _

/-- R180: the credits that a packet carries are owed no longer. -/
theorem sendFront (up : s.port.link = .up) : s.port.sendFront.Sound := by
  have requests := hs.requests
  have commands := hs.commands
  unfold RequesterPort.sendFront
  split
  · exact hs
  · exact ⟨requests, commands, fun hd => by simp [up] at hd⟩
  · exact ⟨by simp; omega, by simp; omega, fun hd => by simp [up] at hd⟩

theorem transmitPacket : s.transmitPacket.port.Sound := by
  unfold State.transmitPacket
  split
  · exact hs
  · rename_i h
    have up : s.port.link = .up := by
      cases hl : s.port.link <;> simp_all
    exact handCredit (s := { s with port := s.port.sendFront }) (hs.sendFront up)

/-! ### Completions, the timeout and the loss of the memory link -/

theorem readTaken (i : Fin 64) (e : Entry) (l : StoredLine) : (s.readTaken i e l).port.Sound := by
  unfold State.readTaken
  split
  · rename_i k _
    split
    · exact hs.respondEntry ..
    · simpa [State.readDecoded] using hs.respondEntry ..
    · simpa using hs
    · unfold State.mergeDecoded
      split
      · simpa using hs
      · split
        · exact hs
        · exact hs
        · exact hs.respondEntry ..
        · simpa using hs.respondEntry ..
    · exact hs
  · simpa using hs
  · simpa using hs
  · exact hs
  · simpa using hs

theorem writeTaken (i : Fin 64) (e : Entry) : (s.writeTaken i e).port.Sound := by
  unfold State.writeTaken
  split
  · simpa [State.writeDone] using hs.respondEntry ..
  all_goals simpa using hs

theorem originFails (e : Entry) (w : FillFailure) : (s.originFails e w).port.Sound := by
  unfold State.originFails
  split
  · exact hs.respondEntry ..
  all_goals simpa using hs

theorem completion (op : MemoryOp) (tag status : Byte) {finish : Fin 64 → Entry → State → State}
    (hf : ∀ i e, (finish i e (s.freeCredit i)).port.Sound) : (s.completion op tag status finish).port.Sound := by
  unfold State.completion
  split
  · exact hs
  · split
    · exact hs
    · split
      · exact hs
      · split
        · exact hs
        · split
          · simpa using hs
          · split
            · exact hf _ _
            · exact originFails (s := (s.freeCredit _).raise _) hs _ _

theorem timeoutExpiry (i : Fin 64) : (s.timeoutExpiry i).port.Sound := by
  unfold State.timeoutExpiry
  split
  · exact hs
  · exact originFails (s := State.raise _ _) (by simpa using hs) _ _

theorem transmits (ps : List OutPacket) : (s.port.transmits ps).Sound where
  requests := hs.requests
  commands := hs.commands
  down hd := by
    have hd : s.port.link = .down := hd
    simpa [RequesterPort.transmits, hd] using hs.down hd

theorem memoryLoss (w : Reason) : (s.memoryLoss w).port.Sound := by
  cases hl : s.memory.link with
  | down => rwa [State.memoryLoss_of_down hl]
  | up =>
    rw [State.memoryLoss_of_up hl, State.loseAll_port]
    exact transmits (s := (s.linkFallen w).fillLost.copyLost) (by simpa [State.linkFallen] using hs) _

end RequesterPort.Sound

theorem operationsKeep_portSound : OperationsKeep fun s => s.port.Sound where
  closeEvent _ hs := hs
  pending _ _ hs := hs
  reset _ _ := reset_unitsSound.2.1
  ownershipPass _ hs := by simpa using hs
  repairService _ hs := by simpa using hs
  fillIssue _ hs := by simpa using hs
  copyStart _ hs := by simpa using hs
  acceptance _ hs := hs.acceptance
  serveCommand _ hs := hs.serveCommand
  issueGrant _ hs := by simpa using hs
  eventDelivery _ hs := hs.eventDelivery
  requesterHello _ hs := hs.requesterHello
  requesterFall w _ hs := hs.requesterFall w
  requestArrives q _ hs := hs.requestArrives q
  commandArrives c _ hs := hs.commandArrives c
  requesterBad k n _ hs := hs.requesterBad k n
  transmitPacket _ hs := hs.transmitPacket
  memoryHello _ _ _ hs := by simpa using hs
  memoryLoss w _ hs := hs.memoryLoss w
  helloExpiry _ hs := by simpa using hs
  memoryBad _ _ _ hs := by simpa using hs
  sdata tag status l s hs := hs.completion _ tag status fun i e =>
    RequesterPort.Sound.readTaken (s := s.freeCredit i) hs i e l
  sdone tag status s hs := hs.completion _ tag status fun i e =>
    RequesterPort.Sound.writeTaken (s := s.freeCredit i) hs i e
  timeoutExpiry i _ hs := hs.timeoutExpiry i
  slotExpiry _ hs := by simpa using hs
  tick _ hs := hs

end Sys2Proof.Machine
end

section
/-! SUPPORT. The memory port stays in order (O56): what an operation leaves of its link, its credits and MTIMEOUT. -/

namespace Sys2Proof.Machine

/-! ### The account of the memory port -/

/-- The account of a memory port: its link, the capacity, the credits announced and in use, and MTIMEOUT; the orders of
waiting entries, the HELLO timer and what has been sent are blank. -/
def MemoryPort.account (m : MemoryPort) : MemoryPort :=
  { m with waiting := [], joined := [], helloStart := none, sent := [] }

/-- The law of the memory port (R68, R73) speaks of its account alone. -/
theorem MemoryPort.Sound.of_account {m n : MemoryPort} (h : n.account = m.account) (hm : m.Sound) : n.Sound := by
  have all : n.account.Sound := h ▸ ⟨hm.credits, hm.announced, hm.down, hm.up, hm.timeout⟩
  exact ⟨all.credits, all.announced, all.down, all.up, all.timeout⟩

/-- Ports of one account agree in their records and in MTIMEOUT. -/
theorem MemoryPort.fields_of_account {m n : MemoryPort} (h : n.account = m.account) :
    n.records = m.records ∧ n.mtimeout = m.mtimeout :=
  ⟨(congrArg MemoryPort.records h : n.account.records = _), (congrArg MemoryPort.mtimeout h : n.account.mtimeout = _)⟩

@[simp] theorem MemoryPort.join_account (i : Fin 64) (m : MemoryPort) : (m.join i).account = m.account := rfl

@[simp] theorem MemoryPort.account_joined (m : MemoryPort) (l : List (Fin 64)) :
    { m with joined := l }.account = m.account := rfl

@[simp] theorem MemoryPort.account_waiting (m : MemoryPort) (l : List (Fin 64)) :
    { m with waiting := l }.account = m.account := rfl

/-! ### Operations that leave the account -/

@[simp] theorem State.becomeOwner_account (i : Fin 64) (s : State) :
    (s.becomeOwner i).memory.account = s.memory.account := by
  unfold State.becomeOwner; (repeat' split) <;> simp

@[simp] theorem State.create_account (i : Fin 64) (e : Entry) (s : State) :
    (s.create i e).memory.account = s.memory.account := by
  unfold State.create; (repeat' split) <;> simp

@[simp] theorem State.ownershipPass_account (s : State) : s.ownershipPass.memory.account = s.memory.account := by
  unfold State.ownershipPass; split <;> simp

@[simp] theorem State.copyStart_account (s : State) : s.copyStart.memory.account = s.memory.account := by
  unfold State.copyStart; split <;> simp

@[simp] theorem State.acceptance_account (s : State) : s.acceptance.memory.account = s.memory.account := by
  unfold State.acceptance State.decideRequest; (repeat' split) <;> simp

@[simp] theorem State.repairService_account (s : State) : s.repairService.memory.account = s.memory.account := by
  unfold State.repairService; (repeat' split) <;> simp

@[simp] theorem State.serveRepairsFor_account (n : Nat) (s : State) :
    (s.serveRepairsFor n).memory.account = s.memory.account := by
  induction n generalizing s with
  | zero => rfl
  | succ n ih => unfold State.serveRepairsFor; split <;> simp [ih]

@[simp] theorem State.fillSome_account (n : Nat) (s : State) : (s.fillSome n).memory.account = s.memory.account := by
  induction n generalizing s with
  | zero => rfl
  | succ n ih => unfold State.fillSome; split <;> simp [ih, State.fillOne]

@[simp] theorem State.fillIssue_account (s : State) : s.fillIssue.memory.account = s.memory.account := by
  unfold State.fillIssue; split <;> simp

@[simp] theorem State.scanBurst_account (i : Fin 32) (n : Nat) (s : State) :
    (s.scanBurst i n).memory.account = s.memory.account := by
  induction n generalizing s with
  | zero => rfl
  | succ n ih => unfold State.scanBurst; (repeat' split) <;> simp [ih]

@[simp] theorem State.slotExpiry_account (s : State) : s.slotExpiry.memory.account = s.memory.account := by
  unfold State.slotExpiry State.serveSlot; (repeat' split) <;> simp

@[simp] theorem State.resetRequesters_account (s : State) : s.resetRequesters.memory.account = s.memory.account := by
  have ended (t : State) (i : Fin 64) : (t.resetEntry i).memory.account = t.memory.account := by
    unfold State.resetEntry; (repeat' split) <;> simp
  have offered (t : State) (l : LineNo) : (t.offerAndServe l).memory.account = t.memory.account := by
    simp [State.offerAndServe, State.serveRepairs]
  exact (foldl_frame State.offerAndServe (·.memory.account) offered _ _).trans
    (foldl_frame State.resetEntry (·.memory.account) ended _ s)

@[simp] theorem State.requesterFall_account (w : Reason) (s : State) :
    (s.requesterFall w).memory.account = s.memory.account := by
  unfold State.requesterFall; split <;> simp

@[simp] theorem State.violation_account (w : Reason) (s : State) :
    (s.violation w).memory.account = s.memory.account := by
  unfold State.violation; split <;> simp

@[simp] theorem State.requestArrives_account (q : Request) (s : State) :
    (s.requestArrives q).memory.account = s.memory.account := by
  unfold State.requestArrives; (repeat' split) <;> simp

@[simp] theorem State.commandArrives_account (c : Command) (s : State) :
    (s.commandArrives c).memory.account = s.memory.account := by
  unfold State.commandArrives; (repeat' split) <;> simp

@[simp] theorem State.requesterBad_account (k : Byte) (n : Nat) (s : State) :
    (s.requesterBad k n).memory.account = s.memory.account := by
  unfold State.requesterBad; (repeat' split) <;> simp

@[simp] theorem State.helloExpiry_account (s : State) : s.helloExpiry.memory.account = s.memory.account := by
  unfold State.helloExpiry; split <;> rfl

@[simp] theorem State.readTaken_account (i : Fin 64) (e : Entry) (l : StoredLine) (s : State) :
    (s.readTaken i e l).memory.account = s.memory.account := by
  unfold State.readTaken State.mergeUnchecked State.mergeDecoded State.patrolRead State.copyRead
  (repeat' split) <;> simp [State.readUnchecked, State.readDecoded]

@[simp] theorem State.writeTaken_account (i : Fin 64) (e : Entry) (s : State) :
    (s.writeTaken i e).memory.account = s.memory.account := by
  unfold State.writeTaken
  split <;> simp [State.writeDone, State.patrolWritten_released]

/-! ### Operations that change the account -/

namespace MemoryPort.Sound
variable {s : State} (hs : s.memory.Sound)
include hs

/-- R75: an operation is issued on a free credit alone. -/
theorem issueGrant : s.issueGrant.memory.Sound := by
  unfold State.issueGrant
  split
  · rename_i free
    obtain ⟨up, room⟩ := MemoryPort.creditFree_iff.1 free
    split
    · split
      · exact
          { credits := by simp [State.issue, MemoryPort.inUse] at room ⊢; omega
            announced := hs.announced
            down := fun hd => by simp [State.issue, up] at hd
            up := hs.up
            timeout := hs.timeout }
      · exact .of_account (m := s.memory) rfl hs
    · exact hs
  · exact hs

/-- R75: a credit that is freed leaves no more in use. -/
theorem freeCredit (i : Fin 64) : (s.freeCredit i).memory.Sound where
  credits := (List.length_filter_le ..).trans hs.credits
  announced := hs.announced
  down hd := by simp [State.freeCredit, hs.down hd]
  up := hs.up
  timeout := hs.timeout

theorem completion (op : MemoryOp) (tag status : Byte) {finish : Fin 64 → Entry → State → State}
    (hf : ∀ i e t, (finish i e t).memory.account = t.memory.account) :
    (s.completion op tag status finish).memory.Sound := by
  unfold State.completion
  split
  · exact hs
  · split
    · exact hs
    · rename_i r _
      split
      · exact hs
      · split
        · exact hs
        · split
          · exact .of_account (by simp [State.lateCompletion]) (hs.freeCredit r.tag)
          · split
            · exact .of_account (hf ..) (hs.freeCredit _)
            · exact .of_account (by simp [State.targetError]) (hs.freeCredit r.tag)

/-- R70, R71: a HELLO that is taken announces 1 to 64 credits, none in use. -/
theorem memoryHello (n : Byte) (k : BitVec 64) : (s.memoryHello n k).memory.Sound := by
  unfold State.memoryHello
  split
  · exact hs
  · split
    · rename_i valid
      have most : n.toNat ≤ 64 := by simp [helloValid] at valid; omega
      have risen : (s.memoryUp n k).memory = s.memory.rise n.toNat k.toNat := by simp [State.memoryUp]
      rw [risen]
      exact ⟨Nat.zero_le _, most, fun _ => rfl, fun _ => ⟨rfl, rfl⟩, hs.timeout⟩
    · exact hs

/-- R73: a memory-link loss leaves no credit in use. -/
theorem memoryLoss (w : Reason) : (s.memoryLoss w).memory.Sound := by
  cases hl : s.memory.link with
  | down => rwa [State.memoryLoss_of_down hl]
  | up =>
    have fallen : (s.memoryLoss w).memory = s.memory.fall s.now := by
      simp [State.memoryLoss_of_up hl, State.linkFallen]
    rw [fallen]
    exact ⟨Nat.zero_le _, hs.announced, fun _ => rfl, nofun, hs.timeout⟩

/-- R83: MTIMEOUT takes no value outside its range. -/
theorem timeoutSet (b : ArgBlock) : (timeoutSet b s).state.memory.Sound := by
  dsimp only [Machine.timeoutSet]
  split
  · exact hs
  · split
    · exact hs
    · exact ⟨hs.credits, hs.announced, hs.down, hs.up, by simp only [done]; omega⟩

end MemoryPort.Sound

/-! ### The management commands -/

theorem fillStart_account (b : ArgBlock) (s : State) : (fillStart b s).state.memory.account = s.memory.account := by
  obtain e | ⟨i, r, -, -, -, e⟩ := fillStart_cases b s <;> rw [e]
  simp [State.startFill]

/-- A management command other than TIMEOUT_SET leaves the account. -/
theorem commandOf_account {k : Nat} {c : Command} {f : State → Reply} (h : commandOf k c = some f) (hk : k ≠ 18)
    (s : State) : (f s).state.memory.account = s.memory.account := by
  unfold commandOf at h
  split at h
  case h_7 =>
    cases h
    exact fillStart_account _ s
  case h_18 => exact absurd rfl hk
  all_goals cases h
  all_goals
    simp only [regionDefine, regionModify, regionState, regionRemove, regionQuery, patrolSet, fillStop, historyQuery,
      historyClear, spareSet, spareMark, spareQuery, retireLine, retireCancel, retireLoad, retireQuery, eventGrant,
      managerSet, freeze, deviceQuery, refuse, done, started]
    (repeat' split)
    all_goals simp [State.boundsChanged, State.regionRemoved, State.cancelRetire, State.loadRetired, State.changeManager]

theorem MemoryPort.Sound.serveCommand {s : State} (hs : s.memory.Sound) : s.serveCommand.memory.Sound := by
  unfold State.serveCommand
  split
  · rename_i c rest _
    have processed : ((s.takeCommand rest).process c).state.memory.Sound := by
      unfold State.process
      (repeat' split)
      · rename_i f hf
        by_cases hk : argCode c.block = 18
        · rw [hk] at hf
          cases hf
          exact MemoryPort.Sound.timeoutSet (s := s.takeCommand rest) hs _
        · exact .of_account (commandOf_account hf hk _) hs
      · exact hs
      · exact hs
    simpa [Reply.send] using processed
  · exact hs

theorem operationsKeep_memorySound : OperationsKeep fun s => s.memory.Sound where
  closeEvent s hs := .of_account (m := s.memory) rfl hs
  pending _ _ hs := hs
  reset _ _ := reset_unitsSound.2.2
  ownershipPass _ hs := .of_account (by simp) hs
  repairService _ hs := .of_account (by simp) hs
  fillIssue _ hs := .of_account (by simp) hs
  copyStart _ hs := .of_account (by simp) hs
  acceptance _ hs := .of_account (by simp) hs
  serveCommand _ hs := hs.serveCommand
  issueGrant _ hs := hs.issueGrant
  eventDelivery _ hs := by simpa using hs
  requesterHello _ hs := by simpa using hs
  requesterFall _ _ hs := .of_account (by simp) hs
  requestArrives _ _ hs := .of_account (by simp) hs
  commandArrives _ _ hs := .of_account (by simp) hs
  requesterBad _ _ _ hs := .of_account (by simp) hs
  transmitPacket _ hs := by simpa using hs
  memoryHello n k _ hs := hs.memoryHello n k
  memoryLoss w _ hs := hs.memoryLoss w
  helloExpiry _ hs := .of_account (by simp) hs
  memoryBad _ _ _ hs := by simpa using hs
  sdata tag status _ _ hs := hs.completion _ tag status fun _ _ _ => State.readTaken_account ..
  sdone tag status _ hs := hs.completion _ tag status fun _ _ _ => State.writeTaken_account ..
  timeoutExpiry _ _ hs := by simpa using hs
  slotExpiry _ hs := .of_account (by simp) hs
  tick _ hs := hs

/-- Settles O56: each operation keeps the law of each port, so every step does. -/
theorem portsStayInOrder : Obligations.PortsStayInOrder := fun s t hs h =>
  ⟨operationsKeep_portSound.keptByStep s t hs.1 h, operationsKeep_memorySound.keptByStep s t hs.2 h⟩

end Sys2Proof.Machine
end

section
/-! SUPPORT. The packets that arrive (O10): their bytes are read back field by field, and a packet is framed as a bad one
only if it is badly framed. -/

namespace Sys2Proof.Machine

/-! ### Runs of bytes among other fields -/

/-- Runs of bytes are equal whose bytes are. -/
theorem bytesAt_congr {p q : List Byte} {i j n : Nat} (h : ∀ k, k < n → byteAt p (i + k) = byteAt q (j + k)) :
    bytesAt p i n = bytesAt q j n := by
  refine Vector.ext fun k hk => ?_
  simp [bytesAt, h k hk]

@[simp] theorem bytesAt_cons_skip (b : Byte) (l : List Byte) (i n : Nat) :
    bytesAt (b :: l) (i + 1) n = bytesAt l i n :=
  bytesAt_congr fun k _ => by rw [Nat.add_right_comm, byteAt_cons_skip]

@[simp] theorem bytesAt_leBytes_skip {w v i n : Nat} (l : List Byte) (h : w ≤ i) :
    bytesAt (leBytes w v ++ l) i n = bytesAt l (i - w) n :=
  bytesAt_congr fun k _ => by rw [byteAt_leBytes_skip l (by omega), Nat.sub_add_comm h]

@[simp] theorem bytesAt_vector {n : Nat} (v : Vector Byte n) : bytesAt v.toList 0 n = v := by
  refine Vector.ext fun k hk => ?_
  simpa [bytesAt] using byteAt_vector v ⟨k, hk⟩

@[simp] theorem fieldAt_mask (m : Mask) (l : List Byte) : fieldAt (leBytes 8 m.toNat ++ l) 0 8 = m.toNat :=
  (fieldAt_leBytes_here ..).trans (Nat.mod_eq_of_lt m.isLt)

@[simp] theorem fieldAt_capacity (c : BitVec 64) : fieldAt (leBytes 8 c.toNat) 0 8 = c.toNat :=
  (fieldAt_leBytes ..).trans (Nat.mod_eq_of_lt c.isLt)

/-! ### Packets read back -/

theorem requesterFrame_requesterBytes {i : Instr} {p : List Byte} (h : requesterBytes i = some p) :
    requesterFrame p = i := by
  cases i
  case lread | lwrite | lmerge | mcmd | requesterHello | requesterReset =>
    cases h
    simp [requesterFrame, requesterLength, header]
  all_goals cases h

theorem memoryFrame_memoryBytes {i : Instr} {p : List Byte} (h : memoryBytes i = some p) : memoryFrame p = i := by
  cases i
  case memoryHello | memoryReset | sdata | sdone =>
    cases h
    simp [memoryFrame, memoryLength, header]
  all_goals cases h

/-! ### Every packet is one that can happen -/

theorem requesterLength_ne_zero (k : Byte) : requesterLength k ≠ some 0 := by
  unfold requesterLength
  (repeat' split) <;> simp

theorem memoryLength_ne_zero (k : Byte) : memoryLength k ≠ some 0 := by
  unfold memoryLength
  (repeat' split) <;> simp

/-- A packet that is not framed as one of its kind does not have the length of its kind. -/
theorem length_ne_of_notFramed {length : Option Nat} {n : Nat} (h0 : length ≠ some 0)
    (h : ¬(n ≠ 0 ∧ length = some n)) : length ≠ some n := by
  rintro rfl
  exact h ⟨fun hn => h0 (by rw [hn]), rfl⟩

theorem requesterFrame_wellFormed (p : List Byte) : (requesterFrame p).WellFormed = true := by
  dsimp only [requesterFrame]
  split
  · (repeat' split) <;> rfl
  · rename_i bad
    exact bne_iff_ne.2 (length_ne_of_notFramed (requesterLength_ne_zero _) bad)

theorem memoryFrame_wellFormed (p : List Byte) : (memoryFrame p).WellFormed = true := by
  dsimp only [memoryFrame]
  split
  · (repeat' split) <;> rfl
  · rename_i bad
    exact bne_iff_ne.2 (length_ne_of_notFramed (memoryLength_ne_zero _) bad)

/-- Settles O10: kind by kind, field by field; a bad packet never has the length of its kind. -/
theorem arrivingPacketsAreReadBackAsSent : Obligations.ArrivingPacketsAreReadBackAsSent :=
  ⟨fun _ _ => requesterFrame_requesterBytes, fun _ _ => memoryFrame_memoryBytes,
    fun p => ⟨requesterFrame_wellFormed p, memoryFrame_wellFormed p⟩⟩

end Sys2Proof.Machine
end

section
/-! SUPPORT. What the memory link delivers that is not taken (O18, O27): HELLOs, badly framed packets and completions; and
the HELLO timer. -/

namespace Sys2Proof.Machine

/-! ### HELLOs and badly framed packets -/

theorem State.memoryHello_of_up {s : State} (h : s.memory.link = .up) (n : Byte) (k : BitVec 64) :
    s.memoryHello n k = s.raise (protocolError .memoryHelloWhileUp) := by
  simp only [State.memoryHello, h]

theorem helloValid_iff {n : Byte} {k : BitVec 64} :
    helloValid n k = true ↔ 1 ≤ n.toNat ∧ n.toNat ≤ 64 ∧ 1 ≤ k.toNat ∧ k.toNat ≤ 4294967296 := by
  simp [helloValid, and_assoc]

theorem State.memoryHello_of_invalid {s : State} {n : Byte} {k : BitVec 64} (h : s.memory.link = .down)
    (bad : ¬helloValid n k = true) : s.memoryHello n k = s.raise (protocolError .memoryHelloInvalid) := by
  simp only [State.memoryHello, h, if_neg bad]

theorem State.memoryBad_of_unknown {s : State} {k : Byte} (h : s.memory.link = .up) (hk : memoryLength k = none)
    (n : Nat) : s.memoryBad k n = s.raise (protocolError .memoryUnknownKind) := by
  simp [State.memoryBad, h, hk]

theorem State.memoryBad_of_length {s : State} {k : Byte} {m n : Nat} (h : s.memory.link = .up)
    (hk : memoryLength k = some m) (hn : m ≠ n) : s.memoryBad k n = s.raise (protocolError .memoryBadLength) := by
  simp [State.memoryBad, h, hk, hn]

theorem State.memoryBad_of_down {s : State} (h : s.memory.link = .down) (k : Byte) (n : Nat) : s.memoryBad k n = s := by
  simp [State.memoryBad, h]

/-! ### The HELLO timer -/

theorem State.helloDue_iff {s : State} {h : Time} (hh : s.memory.helloStart = some h) :
    s.helloDue = true ↔ 1000 ≤ (s.events.time - h).toNat := by
  rw [State.helloDue, hh]
  exact decide_eq_true_iff

/-- R69: a timer that has run its period sends a HELLO, and runs on from the end of the period. -/
theorem State.helloExpiry_of_due {s : State} {h : Time} (hd : s.memory.link = .down)
    (hh : s.memory.helloStart = some h) (due : 1000 ≤ (s.events.time - h).toNat) : s.helloExpiry =
      { s with memory := { s.memory with helloStart := some (h + 1000), sent := s.memory.sent ++ [.hello] } } := by
  have now : s.helloDue = true := (State.helloDue_iff hh).2 due
  simp [State.helloExpiry, now, hd, hh]

theorem State.helloExpiry_of_notDue {s : State} (h : s.memory.link = .up ∨ ¬s.helloDue = true) : s.helloExpiry = s := by
  unfold State.helloExpiry
  refine if_neg fun ⟨due, down⟩ => ?_
  obtain up | early := h
  · simp [up] at down
  · exact early due

/-- Settles O18: the HELLOs and bad packets by the link and their fields, and the timer by how long it has run. -/
theorem memoryPortHellosAndErrors : Obligations.MemoryPortHellosAndErrors := by
  constructor
  · intro s error
    refine ⟨fun credits capacity => ⟨fun up => ?_, fun down bad => ?_⟩,
      fun kind n => ⟨fun up unknown => ?_, fun m up known length => ?_, fun down => ?_⟩⟩
    · exact congrArg _ (State.memoryHello_of_up up credits capacity)
    · exact congrArg _ (State.memoryHello_of_invalid down (mt helloValid_iff.1 bad))
    · exact congrArg _ (State.memoryBad_of_unknown up unknown n)
    · exact congrArg _ (State.memoryBad_of_length up known length)
    · exact congrArg _ (State.memoryBad_of_down down kind n)
  · refine fun s => ⟨fun h down running => ⟨fun due => ?_, fun early => ?_⟩, fun stopped => ?_⟩
    · exact congrArg _ (State.helloExpiry_of_due down running due)
    · have notDue : ¬s.settle.helloDue = true := mt (State.helloDue_iff running).1 (not_le.2 early)
      exact congrArg _ (State.helloExpiry_of_notDue (.inr notDue))
    · have idle : s.settle.memory.link = .up ∨ ¬s.settle.helloDue = true :=
        stopped.imp_right fun off => by simp [State.helloDue, off]
      exact congrArg _ (State.helloExpiry_of_notDue idle)

/-! ### Completions that are not taken -/

section
variable {s : State} (op : MemoryOp) (tag status : Byte) (finish : Fin 64 → Entry → State → State)

/-- R69: while the link is DOWN a completion is discarded. -/
theorem State.completion_of_down (h : s.memory.link = .down) : s.completion op tag status finish = s := by
  simp only [State.completion, h]

/-- R81: a completion that names no issue record is unmatched. -/
theorem State.completion_of_noRecord (h : s.memory.link = .up)
    (unnamed : ∀ r ∈ s.memory.records, r.tag.val ≠ tag.toNat) :
    s.completion op tag status finish = s.unmatched tag .noOperation := by
  have notFound : s.memory.find tag = none := by simpa [MemoryPort.find, List.find?_eq_none] using unnamed
  simp only [State.completion, h, notFound]

/-- R81: a completion that names a record of the other kind is unmatched. -/
theorem State.completion_of_wrongKind {r : IssueRecord} (h : s.memory.link = .up) (found : s.memory.find tag = some r)
    (kind : r.op ≠ op) : s.completion op tag status finish = s.unmatched tag .wrongKind := by
  simp only [State.completion, h, found, if_pos kind]

/-- R85: a completion that names an EXPIRED entry is late. -/
theorem State.completion_of_expired {r : IssueRecord} {e : Entry} (h : s.memory.link = .up)
    (found : s.memory.find tag = some r) (kind : r.op = op) (entry : s.entry r.tag = some e)
    (expired : e.phase = .expired) :
    s.completion op tag status finish = s.lateCompletion r.tag e (decide (status = 0)) := by
  simp [State.completion, h, found, kind, entry, expired]

end

/-- Settles O27: by the link, the record that is named, and its entry. -/
theorem completionsThatAreNotTaken : Obligations.CompletionsThatAreNotTaken := by
  intro s tag status l t both unmatched late
  refine ⟨fun down => ⟨?_, ?_⟩, fun up => ⟨fun unnamed => ⟨?_, ?_⟩, fun r found kind => ?_, fun r found kind => ?_,
    fun r e found entry expired => ?_⟩⟩
  · exact congrArg _ (State.completion_of_down _ _ _ _ down)
  · exact congrArg _ (State.completion_of_down _ _ _ _ down)
  · exact congrArg _ (State.completion_of_noRecord _ _ _ _ up unnamed)
  · exact congrArg _ (State.completion_of_noRecord _ _ _ _ up unnamed)
  · exact congrArg _ (State.completion_of_wrongKind _ _ _ _ up found (by simp [kind]))
  · exact congrArg _ (State.completion_of_wrongKind _ _ _ _ up found (by simp [kind]))
  · have isLate : t.lateCompletion r.tag e (decide (status = 0)) = late r.tag e := by
      simp only [State.lateCompletion, decide_eq_true_eq, late]
    have row (op : MemoryOp) (kind : r.op = op) (finish : Fin 64 → Entry → State → State) :
        t.completion op tag status finish = late r.tag e :=
      (State.completion_of_expired _ _ _ _ up found kind entry expired).trans isLate
    exact ⟨fun kind => congrArg _ (row _ kind _), fun kind => congrArg _ (row _ kind _)⟩

end Sys2Proof.Machine
end

section
/-! SUPPORT. Acknowledged fill writes (O25): the watermark is the lowest line that is left, and the ways a fill goes on or
ends. -/

namespace Sys2Proof.Machine

/-! ### The lowest of several lines -/

/-- A line is the lowest of those for which a condition holds. -/
def IsLowest (p : LineNo → Prop) (w : LineNo) : Prop := p w ∧ ∀ x, p x → w.toNat ≤ x.toNat

theorem IsLowest.congr {p q : LineNo → Prop} (h : ∀ x, p x ↔ q x) (w : LineNo) : IsLowest p w ↔ IsLowest q w := by
  rw [funext fun x => propext (h x)]

/-- Of several lines only the lowest can be the lowest among more. -/
theorem IsLowest.among {p q : LineNo → Prop} {m : LineNo} (hm : IsLowest q m) (w : LineNo) :
    IsLowest (fun x => p x ∨ x = m) w ↔ IsLowest (fun x => p x ∨ q x) w := by
  obtain ⟨member, least⟩ := hm
  constructor
  · rintro ⟨hw, low⟩
    refine ⟨hw.imp_right fun h => by rwa [h], fun x hx => ?_⟩
    obtain hx | hx := hx
    · exact low x (.inl hx)
    · exact (low m (.inr rfl)).trans (least x hx)
  · rintro ⟨hw, low⟩
    have below : w.toNat ≤ m.toNat := low m (.inr member)
    refine ⟨hw.imp_right fun h => BitVec.eq_of_toNat_eq (Nat.le_antisymm below (least w h)), fun x hx => ?_⟩
    obtain hx | rfl := hx
    · exact low x (.inl hx)
    · exact below

/-- The lower of two lines, of which the first may be absent. -/
theorem lowerLine_lowest (a : Option LineNo) (l : LineNo) :
    ∃ m, lowerLine a l = some m ∧ IsLowest (fun x => x = l ∨ a = some x) m := by
  unfold lowerLine
  split
  · exact ⟨l, rfl, .inl rfl, by simp⟩
  · rename_i m
    split
    · exact ⟨l, rfl, .inl rfl, by simp; omega⟩
    · exact ⟨m, rfl, .inr rfl, by simp; omega⟩

theorem foldl_lowerLine_iff (ls : List LineNo) (a : Option LineNo) (w : LineNo) :
    ls.foldl lowerLine a = some w ↔ IsLowest (fun x => x ∈ ls ∨ a = some x) w := by
  induction ls generalizing a with
  | nil => cases a <;> simp +contextual [IsLowest, eq_comm]
  | cons l ls ih =>
    obtain ⟨m, hm, low⟩ := lowerLine_lowest a l
    calc (l :: ls).foldl lowerLine a = some w
      _ ↔ IsLowest (fun x => x ∈ ls ∨ some m = some x) w := by rw [List.foldl_cons, ih, hm]
      _ ↔ IsLowest (fun x => x ∈ ls ∨ x = m) w := IsLowest.congr (by simp [eq_comm]) w
      _ ↔ IsLowest (fun x => x ∈ ls ∨ (x = l ∨ a = some x)) w := low.among w
      _ ↔ IsLowest (fun x => x ∈ l :: ls ∨ a = some x) w := IsLowest.congr (by simp [or_assoc, or_left_comm]) w

/-! ### The fill goes on, or ends -/

theorem State.writeTaken_fill {e : Entry} (h : e.origin = .fill) (i : Fin 64) (s : State) :
    s.writeTaken i e = (s.release i).fillAcknowledged e.line := by
  simp [State.writeTaken, h]

theorem State.fillAcknowledged_of_fill {s : State} {f : Fill} (h : s.patrol.fill = some f) (l : LineNo) :
    s.fillAcknowledged l = s.fillAdvance (f.acknowledge l) := by
  simp only [State.fillAcknowledged, h]

section
variable {s : State} {f : Fill} {r : Region}

/-- R106: the region of a fill that ends takes its new phase, and the engine returns to IDLE. -/
theorem State.endFilling_of_region {i : Fin 32} (h : s.region i = some r) (p : RegionPhase) :
    s.endFilling i p = (s.setRegion i (some { r with phase := p })).setFill none := by
  rw [State.endFilling, State.modifyRegion_of_region h]

theorem State.fillAdvance_of_goesOn
    (h : (f.phase = .issuing ∧ f.watermark ≠ none) ∨ (f.phase ≠ .issuing ∧ f.outstanding ≠ [])) :
    s.fillAdvance f = s.setFill (some f) := by
  obtain ⟨hp, hw⟩ | ⟨hp, ho⟩ := h
  · simp only [State.fillAdvance, hp, if_neg hw]
  · cases h : f.phase with
    | issuing => exact absurd h hp
    | stopping => simp only [State.fillAdvance, h, if_neg ho]
    | failing => simp only [State.fillAdvance, h, if_neg ho]

/-- R112: every line is acknowledged: the region is ONLINE, and its cursor at its base. -/
theorem State.fillAdvance_of_complete (hp : f.phase = .issuing) (hw : f.watermark = none)
    (hr : s.region f.region = some r) : s.fillAdvance f =
      ((s.setRegion f.region (some { r with phase := .online, cursor := r.base })).setFill none).raise
        { kind := .fillDone, region := some f.region, line := some r.limit } := by
  have ended := State.endFilling_of_region hr .online
  have online : (s.endFilling f.region .online).region f.region = some { r with phase := .online } := by
    rw [ended]
    exact (State.region_setRegion ..).trans (if_pos rfl)
  simp only [State.fillAdvance, hp, if_pos hw]
  rw [State.fillComplete, State.modifyRegion_of_region online, ended, hr]
  simp [State.setRegion, State.setFill]

/-- R113: a stopped fill ends when nothing is outstanding. -/
theorem State.fillAdvance_of_stopped (hp : f.phase = .stopping) (ho : f.outstanding = [])
    (hr : s.region f.region = some r) : s.fillAdvance f =
      ((s.setRegion f.region (some { r with phase := .offline })).setFill none).raise
        (match f.watermark with
        | some w =>
          { kind := .fillStopped, region := some f.region, line := some w, reason := some .partialFill }
        | none =>
          { kind := .fillStopped, region := some f.region, line := some r.limit, reason := some .allWritten }) := by
  simp only [State.fillAdvance, hp, if_pos ho, State.fillStopped, State.endFilling_of_region hr, hr]
  cases f.watermark <;> rfl

/-- R114: a failing fill ends when nothing is outstanding. -/
theorem State.fillAdvance_of_failed {x : FailedLine} (hp : f.phase = .failing) (ho : f.outstanding = [])
    (hx : f.failed = some x) (hr : s.region f.region = some r) : s.fillAdvance f =
      ((s.setRegion f.region (some { r with phase := .offline })).setFill none).raise
        { kind := .fillFailed, region := some f.region, line := some x.line, physical := some x.physical
          reason := some x.reason.reason } := by
  simp only [State.fillAdvance, hp, if_pos ho, State.fillFailed, State.endFilling_of_region hr, hx]
  rfl

end

/-- Settles O25: the watermark, and by the phase of the fill and what is left how it goes on or ends. -/
theorem fillWritesRaiseTheWatermark : Obligations.FillWritesRaiseTheWatermark := by
  intro s tag i e f r taken ho hf hr u rest g fill
  have hf : u.patrol.fill = some f := hf
  have hr : u.region f.region = some r := hr
  have row {v : State} (h : u.fillAdvance g = v) : exec (.sdone tag 0) s = .next v := by
    have acknowledged : u.fillAcknowledged e.line = u.fillAdvance g := State.fillAcknowledged_of_fill hf e.line
    rw [taken.exec_sdone, State.writeTaken_fill ho]
    exact congrArg _ (acknowledged.trans h)
  refine ⟨fun w => ?_, fun hp hw => row ?_, fun hp hw => row ?_, fun hp left => row ?_, fun hp left => row ?_,
    fun x hp hx left => row ?_⟩
  · refine (foldl_lowerLine_iff (rest ++ f.unwritten) f.cursor w).trans ?_
    simp only [IsLowest, List.mem_append, or_assoc]
  · exact State.fillAdvance_of_goesOn (.inl ⟨hp, hw⟩)
  · exact State.fillAdvance_of_complete hp hw hr
  · exact State.fillAdvance_of_goesOn (.inr ⟨hp, left⟩)
  · exact State.fillAdvance_of_stopped hp left hr
  · refine (State.fillAdvance_of_failed (f := g) hp left hx hr).trans ?_
    cases x.reason <;> rfl

end Sys2Proof.Machine
end

section
/-! SUPPORT. Failed copies (O31): the spare, the map and the history entry of the line. -/

namespace Sys2Proof.Machine

/-! ### The map -/

/-- R147: the map after a copy that had become owner has failed: a first retirement's entry is removed, a re-retire's is
ACTIVE again on its old spare. -/
def Retirement.restoredMap (l : LineNo) (r : Retirement) : List MapEntry :=
  match r.entry l with
  | some m =>
    if m.pending.isSome then
      r.map.map fun x => if x.line = l then { x with state := .active, pending := none } else x
    else r.map.filter fun x => x.line ≠ l
  | none => r.map

theorem State.restoreMap_retirement (job : CopyJob) (s : State) :
    (s.restoreMap job).retirement = { s.retirement with map := s.retirement.restoredMap job.line } := by
  unfold State.restoreMap Retirement.restoredMap
  cases s.retirement.entry job.line with
  | none => rfl
  | some m =>
    dsimp only
    split <;> rfl

/-! ### The history entry of the line -/

/-- R125: an AUTO retirement that ends without success returns its line's QUEUED entry to NONE; a MANUAL one none. -/
theorem State.slot_noticeEnded (o : RetireOrigin) (l : LineNo) (s : State) (j : Fin 128) :
    (s.noticeEnded o l).slot j = (s.slot j).map fun x =>
      if o = .auto ∧ x.line = l ∧ x.retire = .queued then { x with retire := .none } else x := by
  cases o with
  | auto => simp [State.slot, State.noticeEnded, State.unqueueHistory]
  | manual t => simp [State.noticeEnded]

/-! ### The failure -/

/-- R147: what a failing copy does to the tables before it ends: its spare is free again or condemned, and the map is
restored if it had become owner. -/
def State.copyUndone (owner issued : Bool) (job : CopyJob) (s : State) : State :=
  let freed := s.setSpare job.spare (if issued then .defective else .free)
  if owner then freed.restoreMap job else freed

theorem State.copyFail_of_job {s : State} {job : CopyJob} (h : s.retirement.copy = some job) (owner issued : Bool)
    (why : Reason) (g : Option (Fin 32)) : s.copyFail owner issued why g =
      (((s.copyUndone owner issued job).endCopy).noticeEnded job.origin job.line).raise
        { kind := .retireFailed, line := some job.line, region := g, spare := some job.spare
          origin := some job.origin.event, reason := some why, requester := job.origin.name } := by
  simp only [State.copyFail, h]
  rfl

@[simp] theorem State.copyUndone_frame (owner issued : Bool) (job : CopyJob) (s : State) :
    (s.copyUndone owner issued job).history = s.history ∧ (s.copyUndone owner issued job).events = s.events := by
  cases owner <;> simp [State.copyUndone]

theorem State.copyUndone_retirement {s : State} {a : SpareArea} (ha : s.retirement.area = some a) (owner issued : Bool)
    (job : CopyJob) : (s.copyUndone owner issued job).retirement =
      { s.retirement with
        area := some { a with spares := a.spares.set job.spare (if issued then .defective else .free) }
        map := if owner then s.retirement.restoredMap job.line else s.retirement.map } := by
  cases owner with
  | false => simp [State.copyUndone, State.setSpare_retirement, ha]
  | true =>
    show ((s.setSpare _ _).restoreMap job).retirement = _
    rw [State.restoreMap_retirement, State.setSpare_retirement, ha]
    rfl

/-- Settles O31: the tables and the event of the failure, and at the loss by the phase of the copy's entry. -/
theorem failedCopiesRestoreTheMap : Obligations.FailedCopiesRestoreTheMap := by
  constructor
  · intro s owner issued why g job a hj ha u
    have failed : u = _ := State.copyFail_of_job hj owner issued why g
    refine ⟨?_, fun j => ?_, ?_, ?_⟩
    · have tables : u.retirement = { (s.copyUndone owner issued job).retirement with copy := none } := by
        rw [failed]
        simp [State.endCopy]
      rw [tables, State.copyUndone_retirement ha]
      cases owner with
      | false => rfl
      | true =>
        simp only [if_true, Retirement.restoredMap]
        cases s.retirement.entry job.line <;> rfl
    · have slots : u.slot j = (((s.copyUndone owner issued job).endCopy).noticeEnded job.origin job.line).slot j := by
        rw [failed]
        rfl
      have kept : (s.copyUndone owner issued job).endCopy.slot j = s.slot j := by simp [State.slot]
      rw [slots, State.slot_noticeEnded, kept]
    · rw [failed]
      simp
    · simp [u]
  · intro s e he
    rw [State.copyLost_of_copy he]
    refine ⟨fun hp => by simp [hp], fun hp => ?_, fun hp => by simp [hp]⟩
    obtain hp | hp := hp <;> simp [hp]

end Sys2Proof.Machine
end

section
/-! SUPPORT. TIMEOUT_SET (O51): the value it takes, the operations issued before and after it, and the steps that keep it. -/

namespace Sys2Proof.Machine

/-! ### The command -/

/-- R83: the checks of TIMEOUT_SET in order. -/
theorem timeoutSet_eq (b : ArgBlock) (s : State) : timeoutSet b s =
    if argNat b 12 4 < 100 ∨ 1000000 < argNat b 12 4 then refuse .badArgument s
    else if s.management.frozen then refuse .frozen s
    else done (.timeout (argNat b 12 4)) { s with memory := { s.memory with mtimeout := argNat b 12 4 } } := rfl

/-! ### Operations outstanding keep their deadlines -/

@[simp] theorem EventUnit.push_time (n : Notice) (u : EventUnit) : (u.push n).time = u.time := by
  unfold EventUnit.push; split <;> rfl

@[simp] theorem State.decideRequest_now (q : Request) (i : Fin 64) (s : State) :
    (s.decideRequest q i).events.time = s.events.time := by
  unfold State.decideRequest; (repeat' split) <;> simp

@[simp] theorem State.acceptance_now (s : State) : s.acceptance.events.time = s.events.time := by
  unfold State.acceptance; split <;> simp

@[simp] theorem EventUnit.deliver_time (rest : List EventRecord) (u : EventUnit) : (u.deliver rest).time = u.time := by
  unfold EventUnit.deliver EventUnit.reportLost; split <;> simp

@[simp] theorem State.eventDelivery_now (s : State) : s.eventDelivery.events.time = s.events.time := by
  unfold State.eventDelivery; (repeat' split) <;> simp

/-- The steps that go before a grant issue nothing, and take no time. -/
theorem State.settleBefore_issueGrant_account (s : State) :
    (s.settleBefore .issueGrant).memory.account = s.memory.account
      ∧ (s.settleBefore .issueGrant).events.time = s.events.time := by
  refine State.settleFor_keeps (P := fun t => t.memory.account = s.memory.account ∧ t.events.time = s.events.time)
    (fun i hi t _ ht => ?_) _ s ⟨rfl, rfl⟩
  obtain ⟨account, time⟩ := ht
  cases i
  case issueGrant | command => simp [Inner.before, Inner.inOrder] at hi
  all_goals exact ⟨by simpa [Inner.run] using account, by simpa [Inner.run] using time⟩

/-- R77: a grant adds one issue record at most, with the deadline that MTIMEOUT gives. -/
theorem State.mem_issueGrant_records {s : State} {r : IssueRecord} (h : r ∈ s.issueGrant.memory.records) :
    r ∈ s.memory.records
      ∨ (r.issued = s.events.time ∧ r.deadline = s.events.time + BitVec.ofNat 32 s.memory.mtimeout) := by
  unfold State.issueGrant at h
  split at h
  · split at h
    · split at h
      · rename_i i _ e _
        obtain old | new := List.mem_append.1 (show r ∈ s.memory.records ++ [_] from h)
        · exact .inl old
        · rw [List.mem_singleton.1 new]
          exact .inr ⟨rfl, rfl⟩
      · exact .inl h
    · exact .inl h
  · exact .inl h

/-! ### The commands of a bridge that can take no step of its own -/

/-- In a bridge that can take no step of its own a row finds the state as it is, the event over or not; so each row but a
cold reset leaves the configuration: no command waits to be served. -/
theorem exec_setup_of_quiet {s t : State} (hq : s.quiet = true) {i : Instr} (hi : ∀ p, i ≠ .coldReset p)
    (h : exec i s = .next t) : s.SameSetup t := by
  have closed : s.SameSetup s.closeEvent := s.closeEvent_steady.setup
  have settled : s.SameSetup s.settle := by rwa [s.settle_of_quiet hq]
  have arrived : s.SameSetup s.settleArrival := by rwa [s.settleArrival_of_quiet hq]
  have before (j : Inner) : s.settleBefore j = s := State.settleBefore_of_quiet j hq fun _ _ => rfl
  have requestFinds : s.SameSetup s.requestFinds := by
    unfold State.requestFinds
    split
    · exact settled
    · exact arrived
  have commandFinds : s.SameSetup s.commandFinds := by
    unfold State.commandFinds
    split
    · exact settled
    · exact arrived
  have noCommand : s.port.commands = [] := by
    simpa [Inner.enabled] using List.find?_eq_none.1 (State.quiet_iff.1 hq) .command (by decide)
  have served (p : Nat → Bool) : s.SameSetup (s.serveRow p) := by
    rw [State.serveRow, before, State.serveIf, noCommand]
    exact .refl s
  cases i <;> injection h with h <;> subst h
  case coldReset p => exact absurd rfl (hi p)
  case requesterHello => exact arrived.trans (State.requesterHello_steady _).setup
  case requesterReset | requesterLossOfSignal => exact arrived.trans (State.requesterFall_steady _ _).setup
  case lread | lwrite | lmerge => exact requestFinds.trans (State.requestArrives_steady _ _).setup
  case mcmd => exact commandFinds.trans (State.commandArrives_steady _ _).setup
  case requesterBadPacket => exact arrived.trans (State.requesterBad_steady _ _ _).setup
  case acceptance => rw [before]; exact s.acceptance_steady.setup
  case ownershipPass => exact s.ownershipPass_steady.setup
  case issueGrant => rw [before]; exact s.issueGrant_steady.setup
  case transmitPacket => exact settled.trans (State.transmitPacket_steady _).setup
  case memoryHello => exact settled.trans (State.memoryHello_steady _ _ _).setup
  case memoryReset | memoryLossOfSignal => exact settled.trans (State.memoryLoss_setup _ _)
  case helloTimerExpiry => exact settled.trans (State.helloExpiry_steady _).setup
  case memoryBadPacket => exact settled.trans (State.memoryBad_steady _ _ _).setup
  case sdata =>
    exact settled.trans (State.completion_setup _ _ _ (fun _ _ _ => (State.readTaken_steady _ _ _ _).setup) _)
  case sdone => exact settled.trans (State.completion_setup _ _ _ (fun _ _ _ => State.writeTaken_setup _ _ _) _)
  case completionTimeoutExpiry => exact settled.trans (State.timeoutExpiry_setup _ _)
  case slotTimerExpiry => exact settled.trans (State.slotExpiry_setup _)
  case repairService => exact s.repairService_steady.setup
  case fillIssue => exact s.fillIssue_steady.setup
  case copyStart => exact s.copyStart_steady.setup
  case eventDelivery => exact s.eventDelivery_steady.setup
  all_goals exact served _

/-- Settles O51: the checks of the command, the steps that keep the value, the records a grant adds, and cold reset. -/
theorem timeoutSetTakesItsValue : Obligations.TimeoutSetTakesItsValue := by
  refine ⟨?_, ?_, ?_, ?_⟩
  · intro before c rest s head v
    have row : exec .timeoutSet before = .next ((timeoutSet c.block (s.takeCommand rest)).send c) :=
      congrArg _ (head.serveIf rfl)
    have checks := timeoutSet_eq c.block (s.takeCommand rest)
    refine ⟨fun bad => Reply.refused_row row (checks.trans (if_pos bad)), fun low high => ?_⟩
    have good : ¬(v < 100 ∨ 1000000 < v) := by omega
    refine ⟨fun frozen => Reply.refused_row row ?_, fun free => ?_⟩
    · exact checks.trans ((if_neg good).trans (if_pos frozen))
    · have notFrozen : ¬(s.takeCommand rest).management.frozen = true := by simp [free]
      rw [row, checks.trans ((if_neg good).trans (if_neg notFrozen))]
      rfl
  · exact fun i s t hq hi _ h => (exec_setup_of_quiet hq hi h).mtimeout
  · intro s t r h hr
    injection h with h
    subst h
    obtain ⟨account, time⟩ := s.settleBefore_issueGrant_account
    obtain ⟨records, mtimeout⟩ := MemoryPort.fields_of_account account
    simpa only [records, time, mtimeout] using State.mem_issueGrant_records hr
  · intro p s t h
    rw [exec_coldReset] at h
    injection h with h
    exact h ▸ rfl

end Sys2Proof.Machine
end

section
/-! SUPPORT. PATROL_SET (O45), the service of the repair queue, and the start of a copy (O33). -/

namespace Sys2Proof.Machine

/-! ### PATROL_SET -/

/-- R88: the checks of PATROL_SET in order, its enable as the byte has it. -/
theorem patrolSet_eq (b : ArgBlock) (s : State) : patrolSet b s =
    if ¬(argNat b 4 1 ≤ 1 ∧ 10 ≤ argNat b 12 4 ∧ argNat b 12 4 ≤ 100000) then refuse .badArgument s
    else if s.management.frozen then refuse .frozen s
    else done (.patrol (decide (argNat b 4 1 = 1)) (argNat b 12 4))
      { s with patrol :=
          { s.patrol with
            scanEnabled := decide (argNat b 4 1 = 1), slotPeriod := argNat b 12 4, slotStart := s.events.time } } := by
  unfold patrolSet
  cases hf : argFlag b 4 with
  | none =>
    have := argFlag_eq_none.1 hf
    rw [if_pos (by omega)]
  | some x =>
    have flag : argNat b 4 1 = bit x := argFlag_eq_some.1 hf
    have enable : x = decide (argNat b 4 1 = 1) := by cases x <;> simp [flag, bit]
    have low : argNat b 4 1 ≤ 1 := by cases x <;> simp [flag, bit]
    have range : (argNat b 12 4 < 10 ∨ 100000 < argNat b 12 4)
        ↔ ¬(argNat b 4 1 ≤ 1 ∧ 10 ≤ argNat b 12 4 ∧ argNat b 12 4 ≤ 100000) := by omega
    dsimp only
    rw [← enable]
    exact if_congr range rfl rfl

/-- Settles O45: the checks of the command, and when the slot timer has run its period. -/
theorem patrolSetTakesItsSettings : Obligations.PatrolSetTakesItsSettings := by
  refine ⟨fun before c rest => ?_, fun s => decide_eq_true_iff⟩
  intro s head period refused good
  have row : exec .patrolSet before = .next ((patrolSet c.block (s.takeCommand rest)).send c) :=
    congrArg _ (head.serveIf rfl)
  have checks := patrolSet_eq c.block (s.takeCommand rest)
  refine ⟨fun bad => Reply.refused_row row (checks.trans (if_pos bad)), fun hg frozen => ?_, fun hg free => ?_⟩
  · exact Reply.refused_row row (checks.trans ((if_neg (not_not.2 hg)).trans (if_pos frozen)))
  · have notFrozen : ¬(s.takeCommand rest).management.frozen = true := by simp [free]
    rw [row, checks.trans ((if_neg (not_not.2 hg)).trans (if_neg notFrozen))]
    rfl

/-! ### The repair queue -/

section
variable {s : State} {l : LineNo} {rest : List LineNo} {slot : Fin 64} (hq : s.patrol.repairQueue = l :: rest)
  (hs : s.slotFor .patrol = some slot) (up : s.memory.link = .up)
include hq hs up

/-- R99: the head whose region is ONLINE and CORRECTING becomes a repair entry. -/
theorem State.repairService_of_region {i : Fin 32} (hr : s.repairRegion l = some i) : s.repairService =
    State.create slot (repairEntry i l) { s with patrol := { s.patrol with repairQueue := rest } } := by
  simp only [State.repairService, hq, hs, up, hr]

/-- R99: any other head is dropped. -/
theorem State.repairService_of_noRegion (hr : s.repairRegion l = none) :
    s.repairService = { s with patrol := { s.patrol with repairQueue := rest } } := by
  simp only [State.repairService, hq, hs, up, hr]

end

/-- R99: the three conditions of a service. -/
theorem State.repairReady_iff {s : State} : s.repairReady = true ↔
    s.patrol.repairQueue ≠ [] ∧ s.slotFor .patrol ≠ none ∧ s.memory.link = .up := by
  simp [State.repairReady, and_assoc, Option.isSome_iff_ne_none]

theorem State.repairService_of_idle {s : State}
    (h : s.patrol.repairQueue = [] ∨ s.slotFor .patrol = none ∨ s.memory.link = .down) : s.repairService = s := by
  unfold State.repairService
  split
  · simp_all
  · rfl

/-- R143: the copy of the head of the retire queue. -/
theorem State.copyStart_of_head {s : State} {q : RetireEntry} {rest : List RetireEntry} {i : Fin 64}
    (hq : s.retirement.queue = q :: rest) (hs : s.slotFor .copy = some i) (up : s.memory.link = .up) :
    s.copyStart = State.create i
      { origin := .copy, line := q.line, physical := none, region := (s.lookup q.line).map (·.1), mode := none
        data := none, mask := none, phase := .waitingLine, writing := false, finding := none }
      { s with retirement :=
          { s.retirement with
            queue := rest, copy := some { line := q.line, origin := q.origin, spare := q.spare, void := false } } } := by
  simp only [State.copyStart, hq, hs, up]

theorem State.copyStart_of_idle {s : State}
    (h : s.retirement.queue = [] ∨ s.slotFor .copy = none ∨ s.memory.link = .down) : s.copyStart = s := by
  unfold State.copyStart
  split
  · simp_all
  · rfl

/-- R99: a service takes the head out of the queue. -/
theorem State.repairService_repairQueue {s : State} (h : s.repairReady = true) :
    s.repairService.patrol.repairQueue = s.patrol.repairQueue.tail := by
  obtain ⟨queue, slot, up⟩ := State.repairReady_iff.1 h
  obtain ⟨l, rest, hq⟩ := List.exists_cons_of_ne_nil queue
  obtain ⟨i, hi⟩ := Option.ne_none_iff_exists'.1 slot
  cases hr : s.repairRegion l with
  | none => simp [State.repairService_of_noRegion hq hi up hr, hq]
  | some k => simp [State.repairService_of_region hq hi up hr, hq]

/-- R99: a service that can go on goes on with the next head. -/
theorem State.serveRepairs_of_ready {s : State} (h : s.repairReady = true) :
    s.serveRepairs = s.repairService.serveRepairs := by
  obtain ⟨l, rest, hq⟩ := List.exists_cons_of_ne_nil (State.repairReady_iff.1 h).1
  rw [State.serveRepairs, State.serveRepairs, State.repairService_repairQueue h, hq, List.length_cons, List.tail_cons,
    State.serveRepairsFor, if_pos h]

theorem State.serveRepairs_of_notReady {s : State} (h : ¬s.repairReady = true) : s.serveRepairs = s := by
  unfold State.serveRepairs
  cases s.patrol.repairQueue.length with
  | zero => rfl
  | succ n => exact if_neg h

/-- Settles O33: the service of a head, the start of a copy, an offer, and how service goes on. -/
theorem repairsAndCopiesStartFromTheirQueues : Obligations.RepairsAndCopiesStartFromTheirQueues := by
  refine ⟨fun s => ⟨?_, ?_⟩, fun s => ⟨?_, ?_⟩, fun s l => ⟨?_, ?_, rfl⟩, fun s => ?_⟩
  · intro l rest slot hq hs up t
    have dropped (hr : s.repairRegion l = none) : exec .repairService s = .next t :=
      congrArg Host.Outcome.next (State.repairService_of_noRegion hq hs up hr)
    refine ⟨fun hl => dropped ?_, fun i r hl => ⟨fun hr => dropped ?_, fun hr => ?_⟩⟩
    · simp only [State.repairRegion, hl]
    · simp only [State.repairRegion, hl, if_neg hr]
    · have chosen : s.repairRegion l = some i := by simp only [State.repairRegion, hl, if_pos hr]
      exact congrArg Host.Outcome.next (State.repairService_of_region hq hs up chosen)
  · exact fun h => congrArg _ (State.repairService_of_idle h)
  · exact fun q rest i hq hs up => congrArg _ (State.copyStart_of_head hq hs up)
  · exact fun h => congrArg _ (State.copyStart_of_idle h)
  · exact fun h => if_pos h
  · exact fun absent room => if_neg (not_or.2 ⟨absent, not_le.2 room⟩)
  · refine ⟨fun h => ⟨rfl, ?_⟩, fun h => ?_⟩
    · exact State.serveRepairs_of_ready (State.repairReady_iff.2 h)
    · exact State.serveRepairs_of_notReady (mt State.repairReady_iff.1 h)

end Sys2Proof.Machine
end

section
/-! SUPPORT. The repair queue stays in order (O58): what each operation leaves of it, and an offer. -/

namespace Sys2Proof.Machine

/-! ### The operations that leave the repair queue -/

@[simp] theorem State.setFill_repairQueue (f : Option Fill) (s : State) :
    (s.setFill f).patrol.repairQueue = s.patrol.repairQueue := rfl

@[simp] theorem State.fillSome_repairQueue (n : Nat) (s : State) :
    (s.fillSome n).patrol.repairQueue = s.patrol.repairQueue := by
  induction n generalizing s with
  | zero => rfl
  | succ n ih => unfold State.fillSome; split <;> simp [ih, State.fillOne]

@[simp] theorem State.fillIssue_repairQueue (s : State) :
    s.fillIssue.patrol.repairQueue = s.patrol.repairQueue := by
  unfold State.fillIssue; split <;> simp

@[simp] theorem State.endFilling_repairQueue (i : Fin 32) (p : RegionPhase) (s : State) :
    (s.endFilling i p).patrol.repairQueue = s.patrol.repairQueue := by simp [State.endFilling]

@[simp] theorem State.fillAdvance_repairQueue (f : Fill) (s : State) :
    (s.fillAdvance f).patrol.repairQueue = s.patrol.repairQueue := by
  unfold State.fillAdvance
  (repeat' split) <;> simp [State.fillComplete, State.fillStopped, State.fillFailed]

@[simp] theorem State.fillAcknowledged_repairQueue (l : LineNo) (s : State) :
    (s.fillAcknowledged l).patrol.repairQueue = s.patrol.repairQueue := by
  unfold State.fillAcknowledged; split <;> simp

@[simp] theorem State.fillWriteFailed_repairQueue (l p : LineNo) (w : FillFailure) (s : State) :
    (s.fillWriteFailed l p w).patrol.repairQueue = s.patrol.repairQueue := by
  unfold State.fillWriteFailed; split <;> simp

@[simp] theorem State.fillLost_repairQueue (s : State) : s.fillLost.patrol.repairQueue = s.patrol.repairQueue := by
  simp [State.fillLost_patrol]

@[simp] theorem State.originFails_repairQueue (e : Entry) (w : FillFailure) (s : State) :
    (s.originFails e w).patrol.repairQueue = s.patrol.repairQueue := by
  unfold State.originFails; split <;> simp

@[simp] theorem State.slotExpiry_repairQueue (s : State) :
    s.slotExpiry.patrol.repairQueue = s.patrol.repairQueue := by
  unfold State.slotExpiry State.serveSlot; (repeat' split) <;> simp [State.nextSlot]

/-! ### The law -/

/-- R97: a queue that loses lines, or none, stays in order. -/
theorem State.RepairsSound.of_sublist {s t : State} (hs : s.RepairsSound)
    (h : t.patrol.repairQueue.Sublist s.patrol.repairQueue) : t.RepairsSound :=
  ⟨h.length_le.trans hs.length, hs.nodup.sublist h⟩

theorem State.RepairsSound.of_eq {s t : State} (hs : s.RepairsSound)
    (h : t.patrol.repairQueue = s.patrol.repairQueue) : t.RepairsSound := hs.of_sublist (h ▸ .refl _)

namespace State.RepairsSound
variable {s : State} (hs : s.RepairsSound)
include hs

/-- R98: a line is offered. -/
theorem offerRepair (l : LineNo) : (s.offerRepair l).RepairsSound := by
  unfold State.offerRepair
  split
  · exact hs
  · rename_i h
    obtain ⟨absent, room⟩ := not_or.1 h
    refine ⟨by simp; omega, ?_⟩
    exact List.nodup_append.2 ⟨hs.nodup, List.nodup_singleton l, fun a ha b hb hab => absent (by simp_all)⟩

theorem offerIf (b : Bool) (l : LineNo) : (s.offerIf b l).RepairsSound := by
  unfold State.offerIf
  split
  · exact hs.offerRepair l
  · exact hs

/-- R99: a service takes a line out of the queue. -/
theorem repairService : s.repairService.RepairsSound := by
  by_cases h : s.repairReady = true
  · exact hs.of_sublist (State.repairService_repairQueue h ▸ List.tail_sublist _)
  · refine hs.of_eq ?_
    unfold State.repairService
    split
    · exact absurd (State.repairReady_iff.2 (by simp_all)) h
    · rfl

omit hs in
theorem serveRepairsFor (n : Nat) {s : State} (hs : s.RepairsSound) : (s.serveRepairsFor n).RepairsSound := by
  induction n generalizing s with
  | zero => exact hs
  | succ n ih =>
    unfold State.serveRepairsFor
    split
    · exact ih hs.repairService
    · exact hs

omit hs in
/-- A fold of operations that keep the law keeps it. -/
theorem foldl {α : Type} {f : State → α → State} (h : ∀ (t : State) (x : α), t.RepairsSound → (f t x).RepairsSound)
    (l : List α) {s : State} (hs : s.RepairsSound) : (l.foldl f s).RepairsSound := by
  induction l generalizing s with
  | nil => exact hs
  | cons x xs ih => exact ih (h s x hs)

/-- R64: the lines that a fall of the requester link offers are served one by one. -/
theorem requesterFall (w : Reason) : (s.requesterFall w).RepairsSound := by
  unfold State.requesterFall
  split
  · exact hs
  · have reset : (State.resetRequesters { s with port := s.port.fall }).RepairsSound :=
      foldl (fun t l ht => serveRepairsFor _ (ht.offerRepair l)) _
        (foldl (fun t i ht => ht.of_eq (by simp)) _ (s := { s with port := s.port.fall }) ⟨hs.length, hs.nodup⟩)
    exact ⟨reset.length, reset.nodup⟩

theorem violation (w : Reason) : (s.violation w).RepairsSound := by
  unfold State.violation
  split
  · exact hs
  · exact requesterFall (s := s.raise _) ⟨hs.length, hs.nodup⟩ _

theorem requestArrives (q : Request) : (s.requestArrives q).RepairsSound := by
  unfold State.requestArrives
  (repeat' split)
  · exact hs
  · exact ⟨hs.length, hs.nodup⟩
  · exact hs.violation _

theorem commandArrives (c : Command) : (s.commandArrives c).RepairsSound := by
  unfold State.commandArrives
  (repeat' split)
  · exact hs
  · exact ⟨hs.length, hs.nodup⟩
  · exact hs.violation _

theorem requesterBad (k : Byte) (n : Nat) : (s.requesterBad k n).RepairsSound := by
  unfold State.requesterBad
  (repeat' split)
  · exact hs.of_eq (by simp)
  · exact hs
  · exact hs
  all_goals exact hs.violation _

theorem release (i : Fin 64) : (s.release i).RepairsSound := hs.of_eq rfl

/-- R58: a decoded READ offers its line at most. -/
theorem readDecoded (i : Fin 64) (e : Entry) (t : Ticket) (f : Finding) (d : Data) :
    (s.readDecoded i e t f d).RepairsSound := by
  have counted : ((s.respondEntry t f.status f.isCorrected d).countRead t e f).RepairsSound := hs.of_eq (by simp)
  exact (counted.offerIf f.offers e.line).of_eq (by simp [State.readDecoded])

/-- R58, R61, R65: an SDATA offers its line at most. -/
theorem readTaken (i : Fin 64) (e : Entry) (l : StoredLine) : (s.readTaken i e l).RepairsSound := by
  unfold State.readTaken
  split
  · rename_i t _
    split
    · exact hs.of_eq (by simp [State.readUnchecked])
    · exact hs.readDecoded ..
    · unfold State.mergeUnchecked
      split <;> exact hs.of_eq (by simp)
    · unfold State.mergeDecoded
      (repeat' split)
      · exact (hs.offerIf _ _).release i
      · exact hs.of_eq (by simp)
      · exact hs.of_eq (by simp)
      · exact hs.of_eq (by simp)
      · have answered : (s.respondEntry t .uncorrectable false zeroData).RepairsSound := hs.of_eq (by simp)
        exact (answered.offerRepair e.line).release i
    · exact hs
  · exact hs.of_eq (by simp)
  · exact hs.of_eq (by simp)
  · exact hs
  · exact hs.of_eq (by simp)

/-- R100, R146: a copy that succeeds drops its line. -/
theorem copySucceed (g : Option (Fin 32)) : (s.copySucceed g).RepairsSound := by
  unfold State.copySucceed
  split
  · exact hs
  · exact hs.of_sublist (by simp)

theorem writeTaken (i : Fin 64) (e : Entry) : (s.writeTaken i e).RepairsSound := by
  unfold State.writeTaken
  split
  · exact hs.of_eq (by simp [State.writeDone])
  · exact hs.of_eq (by simp)
  · exact hs.of_eq (by simp)
  · exact hs.of_eq (by simp)
  · exact (hs.copySucceed _).release i

theorem completion (op : MemoryOp) (tag status : Byte) {finish : Fin 64 → Entry → State → State}
    (hf : ∀ i e t, t.RepairsSound → (finish i e t).RepairsSound) :
    (s.completion op tag status finish).RepairsSound := by
  unfold State.completion
  (repeat' split)
  · exact hs
  · exact hs.of_eq (by simp)
  · exact hs.of_eq (by simp)
  · exact hs.of_eq (by simp)
  · exact hs.of_eq (by simp)
  · exact hf _ _ _ (hs.of_eq (by simp))
  · exact hs.of_eq (by simp [State.targetError])

/-- R14, R19: of the management commands a change of bounds and a removal alone touch the queue, dropping lines. -/
theorem commandOf {k : Nat} {c : Command} {f : State → Reply} (h : commandOf k c = some f) :
    (f s).state.RepairsSound := by
  unfold Machine.commandOf at h
  split at h
  case h_2 =>
    cases h
    obtain e | ⟨i, r, -, -, -, e⟩ := regionModify_cases c.block s <;> rw [e]
    · exact hs
    · split
      · exact hs.of_sublist (by simp [State.boundsChanged])
      · exact hs.of_eq (by simp)
  case h_4 =>
    cases h
    obtain e | ⟨i, r, -, -, -, e⟩ := regionRemove_cases c.block s <;> rw [e]
    · exact hs
    · exact hs.of_sublist (by simp [State.regionRemoved])
  all_goals cases h
  all_goals
    simp only [regionDefine, regionState, regionQuery, patrolSet, fillStart, fillStop, historyQuery, historyClear,
      spareSet, spareMark, spareQuery, retireLine, retireCancel, retireLoad, retireQuery, timeoutSet, eventGrant,
      managerSet, freeze, deviceQuery, refuse, done, started]
    (repeat' split) <;>
      refine hs.of_eq ?_ <;> simp [State.startFill, State.cancelRetire, State.loadRetired, State.changeManager]

theorem serveCommand : s.serveCommand.RepairsSound := by
  unfold State.serveCommand
  split
  · rename_i c rest _
    have taken : (s.takeCommand rest).RepairsSound := hs.of_eq (by simp)
    have processed : ((s.takeCommand rest).process c).state.RepairsSound := by
      unfold State.process
      (repeat' split)
      · exact taken.commandOf ‹_›
      · exact taken
      · exact taken.of_eq (by simp [refuse])
    exact processed.of_eq (by simp [Reply.send])
  · exact hs

end State.RepairsSound

theorem operationsKeep_repairsSound : OperationsKeep State.RepairsSound where
  closeEvent _ hs := hs.of_eq rfl
  pending _ _ hs := hs.of_eq rfl
  reset _ _ := ⟨by simp [State.reset], by simp [State.reset]⟩
  ownershipPass _ hs := hs.of_eq (by simp)
  repairService _ hs := hs.repairService
  fillIssue _ hs := hs.of_eq (by simp)
  copyStart _ hs := hs.of_eq (by simp)
  acceptance _ hs := hs.of_eq (by simp)
  serveCommand _ hs := hs.serveCommand
  issueGrant _ hs := hs.of_eq (by simp)
  eventDelivery _ hs := hs.of_eq (by simp)
  requesterHello _ hs := hs.of_eq (by simp)
  requesterFall w _ hs := hs.requesterFall w
  requestArrives q _ hs := hs.requestArrives q
  commandArrives c _ hs := hs.commandArrives c
  requesterBad k n _ hs := hs.requesterBad k n
  transmitPacket _ hs := hs.of_eq (by simp)
  memoryHello _ _ _ hs := hs.of_eq (by simp)
  memoryLoss w s hs := hs.of_eq (by unfold State.memoryLoss; split <;> simp)
  helloExpiry _ hs := hs.of_eq (by simp)
  memoryBad _ _ _ hs := hs.of_eq (by simp)
  sdata tag status l _ hs := hs.completion _ tag status fun _ _ _ ht => ht.readTaken _ _ l
  sdone tag status _ hs := hs.completion _ tag status fun _ _ _ ht => ht.writeTaken _ _
  timeoutExpiry i s hs := hs.of_eq (by unfold State.timeoutExpiry; split <;> simp)
  slotExpiry _ hs := hs.of_eq (by simp)
  tick _ hs := hs.of_eq rfl

end Sys2Proof.Machine
end

section
/-! SUPPORT. The error history table stays in order (O58): operations under which its entries keep their lines, regions and
counts, the report of a write-back, and the commands that change a region's bounds. -/

namespace Sys2Proof.Machine

/-! ### Entries that stay, or go -/

/-- What the law of the history table speaks of in an entry (R118). -/
def HistoryEntry.identity (e : HistoryEntry) : LineNo × Fin 32 × Nat := (e.line, e.region, e.count)

/-- Each entry of `t` stood in the same slot of `s`, with the same line, region and count. -/
structure State.HistoryWithin (s t : State) : Prop where
  stood : ∀ j e, t.slot j = some e → ∃ f, s.slot j = some f ∧ e.identity = f.identity

theorem State.HistoryWithin.of_eq {s t : State} (h : t.history = s.history) : s.HistoryWithin t :=
  ⟨fun j e he => ⟨e, by rwa [State.slot, ← h], rfl⟩⟩

theorem State.HistoryWithin.refl (s : State) : s.HistoryWithin s := .of_eq rfl

theorem State.HistoryWithin.trans {s t u : State} (h : s.HistoryWithin t) (k : t.HistoryWithin u) : s.HistoryWithin u := by
  refine ⟨fun j e he => ?_⟩
  obtain ⟨f, hf, ef⟩ := k.stood j e he
  obtain ⟨g, hg, fg⟩ := h.stood j f hf
  exact ⟨g, hg, ef.trans fg⟩

/-- An operation that changes the slots one by one, and no entry's identity. -/
theorem State.HistoryWithin.of_map {s t : State} {g : HistoryEntry → HistoryEntry} (hg : ∀ e, (g e).identity = e.identity)
    (h : ∀ j, t.slot j = (s.slot j).map g) : s.HistoryWithin t := by
  refine ⟨fun j e he => ?_⟩
  rw [h] at he
  obtain ⟨f, hf, rfl⟩ := Option.map_eq_some_iff.1 he
  exact ⟨f, hf, hg f⟩

/-- R125, R126, R128: entries are forgotten. -/
theorem State.forgetHistory_within (p : HistoryEntry → Bool) (s : State) : s.HistoryWithin (s.forgetHistory p) := by
  refine ⟨fun j e he => ?_⟩
  rw [State.slot_forgetHistory] at he
  exact ⟨e, (Option.filter_eq_some_iff.1 he).1, rfl⟩

/-- R125: the notice of a retirement that ended changes a retire state at most. -/
theorem State.noticeEnded_within (o : RetireOrigin) (l : LineNo) (s : State) : s.HistoryWithin (s.noticeEnded o l) :=
  .of_map (fun e => by split <;> rfl) (State.slot_noticeEnded o l s)

theorem State.slot_setSlot (i j : Fin 128) (x : Option HistoryEntry) (s : State) :
    (s.setSlot i x).slot j = if i = j then x else s.slot j := by
  simp only [State.slot, State.setSlot, Vector.getElem_set, Fin.val_inj]

theorem State.setRetireState_within (i : Fin 128) (x : RetireState) (s : State) :
    s.HistoryWithin (s.setRetireState i x) := by
  refine ⟨fun j e he => ?_⟩
  rw [State.setRetireState, State.slot_setSlot] at he
  split at he
  · subst j
    obtain ⟨f, hf, rfl⟩ := Option.map_eq_some_iff.1 he
    exact ⟨f, hf, rfl⟩
  · exact ⟨e, he, rfl⟩

theorem State.autoAnswer_within (i : Fin 128) (e : HistoryEntry) (a : RetireAnswer) (s : State) :
    s.HistoryWithin (s.autoAnswer i e a) := by
  have deferred (n : Notice) : s.HistoryWithin ((s.setRetireState i .deferred).raise n) :=
    (State.setRetireState_within i .deferred s).trans (.of_eq rfl)
  cases a with
  | accepted spare =>
    have enqueued : s.HistoryWithin (s.enqueueRetire e.line .auto spare) := .of_eq (by simp)
    exact (enqueued.trans (State.setRetireState_within i .queued _)).trans (.of_eq rfl)
  | inSpareArea | pending => exact .refl s
  | noSpareArea | beyondCapacity | queueFull | noneFree | unavailable => exact deferred _

theorem State.thresholdTest_within (i : Fin 128) (s : State) : s.HistoryWithin (s.thresholdTest i) := by
  unfold State.thresholdTest
  (repeat' split)
  · exact .refl s
  · exact .refl s
  · exact State.autoAnswer_within _ _ _ s
  · exact .refl s

theorem State.copyFail_within (o i : Bool) (w : Reason) (g : Option (Fin 32)) (s : State) :
    s.HistoryWithin (s.copyFail o i w g) := by
  cases hj : s.retirement.copy with
  | none => simpa [State.copyFail, hj] using State.HistoryWithin.refl s
  | some job =>
    rw [State.copyFail_of_job hj]
    have undone : s.HistoryWithin (s.copyUndone o i job).endCopy := .of_eq (by simp)
    exact (undone.trans (State.noticeEnded_within job.origin job.line _)).trans (.of_eq rfl)

theorem State.copyLost_within (s : State) : s.HistoryWithin s.copyLost := by
  unfold State.copyLost
  (repeat' split)
  · exact .refl s
  · exact State.copyFail_within ..
  · exact State.copyFail_within ..

theorem State.originFails_within (e : Entry) (w : FillFailure) (s : State) : s.HistoryWithin (s.originFails e w) := by
  unfold State.originFails
  split
  · exact .of_eq (by simp)
  · exact .refl s
  · exact .refl s
  · exact .of_eq (by simp)
  · exact State.copyFail_within ..

theorem State.clipSpares_within (n : Nat) (s : State) : s.HistoryWithin (s.clipSpares n) := by
  unfold State.clipSpares
  (repeat' split)
  · exact .refl s
  · exact .of_map (fun e => by unfold HistoryEntry.unqueuedBy; split <;> rfl) (State.failQueued_foldl _ _).2.1
  · exact .of_eq rfl

theorem State.memoryHello_within (n : Byte) (k : BitVec 64) (s : State) : s.HistoryWithin (s.memoryHello n k) := by
  unfold State.memoryHello State.memoryUp
  (repeat' split)
  · exact .of_eq rfl
  · exact (State.HistoryWithin.of_eq (by simp)).trans (State.clipSpares_within _ _)
  · exact .of_eq rfl

theorem State.memoryLoss_within (w : Reason) (s : State) : s.HistoryWithin (s.memoryLoss w) := by
  unfold State.memoryLoss
  split
  · exact .refl s
  · have fallen : s.HistoryWithin (State.fillLost (State.raise { kind := .memoryLinkDown, reason := some w }
        { s with memory := s.memory.fall s.now })) := .of_eq (by simp)
    exact (fallen.trans (State.copyLost_within _)).trans (.of_eq (by simp))

theorem State.timeoutExpiry_within (i : Fin 64) (s : State) : s.HistoryWithin (s.timeoutExpiry i) := by
  unfold State.timeoutExpiry
  split
  · exact .refl s
  · rename_i e _
    have expired : s.HistoryWithin (((s.setEntry i (some { e with phase := .expired })).leaveOrder i).raise
        (failureNotice .memoryTimeout e)) := .of_eq (by simp)
    exact expired.trans (State.originFails_within ..)

theorem State.targetError_within (i : Fin 64) (e : Entry) (s : State) : s.HistoryWithin (s.targetError i e) :=
  have freed : s.HistoryWithin ((s.freeCredit i).raise (failureNotice .targetError e)) := .of_eq (by simp)
  (freed.trans (State.originFails_within e .targetError _)).trans (.of_eq rfl)

theorem State.copySucceed_within (g : Option (Fin 32)) (s : State) : s.HistoryWithin (s.copySucceed g) := by
  unfold State.copySucceed
  split
  · exact .refl s
  · rename_i job _
    have moved : s.HistoryWithin ((s.moveSpares job).activateMap job) := .of_eq (by simp)
    exact (moved.trans (State.forgetHistory_within (fun e => e.line = job.line) _)).trans (.of_eq rfl)

/-! ### The law -/

/-- Entries that stay keep the law if their lines stay within their regions. -/
theorem State.HistorySound.of_within {s t : State} (hs : s.HistorySound) (h : s.HistoryWithin t)
    (regions : ∀ j e, t.slot j = some e → ∀ r, s.region e.region = some r → r.contains e.line = true →
      ∃ q, t.region e.region = some q ∧ q.contains e.line = true) : t.HistorySound := by
  have stood {j : Fin 128} {e : HistoryEntry} (he : t.slot j = some e) :
      ∃ f, s.slot j = some f ∧ e.line = f.line ∧ e.region = f.region ∧ e.count = f.count := by
    simpa [HistoryEntry.identity] using h.stood j e he
  refine ⟨fun i j e f he hf hl => ?_, fun i e he => ?_, fun i e he => ?_⟩
  · obtain ⟨e', he', line, -⟩ := stood he
    obtain ⟨f', hf', line', -⟩ := stood hf
    exact hs.unique i j e' f' he' hf' (by rw [← line, ← line', hl])
  · obtain ⟨e', he', -, -, count⟩ := stood he
    exact count ▸ hs.count i e' he'
  · obtain ⟨e', he', line, region, -⟩ := stood he
    obtain ⟨r, hr, hc⟩ := hs.inRegion i e' he'
    exact regions i e he r (region ▸ hr) (line ▸ hc)

/-- Regions that keep their definitions contain the same lines. -/
theorem State.SameSetup.contains {s t : State} (h : s.SameSetup t) {i : Fin 32} {r : Region} (hr : s.region i = some r) :
    ∃ q, t.region i = some q ∧ ∀ l, q.contains l = r.contains l := by
  obtain ⟨q, hq, e⟩ := region_of_map (h.definition i).symm hr
  exact ⟨q, hq, Region.contains_of_definition e.symm⟩

theorem State.HistorySound.of_setup {s t : State} (hs : s.HistorySound) (setup : s.SameSetup t)
    (h : s.HistoryWithin t) : t.HistorySound :=
  hs.of_within h fun _ e _ _ hr hc => by
    obtain ⟨q, hq, same⟩ := setup.contains hr
    exact ⟨q, hq, (same e.line).trans hc⟩

/-- An operation that leaves the region table and the history table alone. -/
theorem State.HistorySound.of_eq {s t : State} (hs : s.HistorySound)
    (h : t.regions = s.regions ∧ t.history = s.history) : t.HistorySound :=
  hs.of_within (.of_eq h.2) fun _ e _ r hr hc => ⟨r, (State.region_of_regions h.1 e.region).trans hr, hc⟩

/-! ### The report of a write-back -/

theorem State.historySlot_eq_some {s : State} {l : LineNo} {i : Fin 128} (h : s.historySlot l = some i) :
    ∃ e, s.slot i = some e ∧ e.line = l := by
  simpa [Option.any_eq_true] using List.find?_some h

theorem State.historySlot_eq_none {s : State} {l : LineNo} (h : s.historySlot l = none) {i : Fin 128} {e : HistoryEntry}
    (he : s.slot i = some e) : e.line ≠ l := by
  simpa [he] using List.find?_eq_none.1 h i (List.mem_finRange i)

/-- An entry is written in its slot: no other holds its line, and it counts within its region. -/
theorem State.HistorySound.setSlot {s : State} (hs : s.HistorySound) {i : Fin 128} {e : HistoryEntry}
    (alone : ∀ j f, s.slot j = some f → f.line = e.line → j = i) (count : 1 ≤ e.count ∧ e.count ≤ 15)
    (region : ∃ r, s.region e.region = some r ∧ r.contains e.line = true) : (s.setSlot i (some e)).HistorySound := by
  have read {j : Fin 128} {f : HistoryEntry} (hf : (s.setSlot i (some e)).slot j = some f) :
      (i = j ∧ e = f) ∨ (i ≠ j ∧ s.slot j = some f) := by
    rw [State.slot_setSlot] at hf
    split at hf
    · exact .inl ⟨‹_›, Option.some.inj hf⟩
    · exact .inr ⟨‹_›, hf⟩
  refine ⟨fun j k f g hf hg hl => ?_, fun j f hf => ?_, fun j f hf => ?_⟩
  · obtain ⟨rfl, rfl⟩ | ⟨hj, hf⟩ := read hf <;> obtain ⟨rfl, rfl⟩ | ⟨hk, hg⟩ := read hg
    · rfl
    · exact (alone k g hg hl.symm).symm
    · exact alone j f hf hl
    · exact hs.unique j k f g hf hg hl
  · obtain ⟨-, rfl⟩ | ⟨-, hf⟩ := read hf
    · exact count
    · exact hs.count j f hf
  · obtain ⟨-, rfl⟩ | ⟨-, hf⟩ := read hf
    · exact region
    · exact hs.inRegion j f hf

namespace State.HistorySound
variable {s : State} (hs : s.HistorySound)
include hs

theorem thresholdTest (i : Fin 128) : (s.thresholdTest i).HistorySound :=
  hs.of_setup (State.Steady.setup (.of_fields (by simp))) (State.thresholdTest_within i s)

/-- R121: the line of a report counts in its entry, or in a new one. -/
theorem reportWriteBack (l : LineNo) (g : Fin 32) (p : Fin 72) (o : WriteBackOrigin) :
    (s.reportWriteBack l g p o).HistorySound := by
  unfold State.reportWriteBack
  split
  · exact hs
  · rename_i r hr
    split
    · exact hs
    · rename_i hc
      have hc : r.contains l = true := not_not.1 hc
      split
      · rename_i i hi
        obtain ⟨e, he, rfl⟩ := State.historySlot_eq_some hi
        rw [he]
        have := hs.count i e he
        have counted (x : HistoryEntry) (identity : x.identity = (e.line, e.region, min (e.count + 1) 15)) :
            (s.setSlot i (some x)).HistorySound := by
          obtain ⟨line, region, count⟩ : x.line = e.line ∧ x.region = e.region ∧ x.count = min (e.count + 1) 15 := by
            simpa [HistoryEntry.identity] using identity
          refine hs.setSlot (fun j f hf hl => hs.unique j i f e hf he (hl.trans line)) ?_ ?_
          · omega
          · rw [line, region]
            exact hs.inRegion i e he
        exact (counted _ rfl).thresholdTest i
      · rename_i hi
        split
        · exact hs
        · rename_i i events _
          have alone (j : Fin 128) (f : HistoryEntry) (hf : s.slot j = some f) (hl : f.line = l) : j = i :=
            absurd hl (State.historySlot_eq_none hi hf)
          have inserted (x : HistoryEntry) (identity : x.identity = (l, g, 1)) :
              (s.setSlot i (some x)).HistorySound := by
            obtain ⟨line, region, count⟩ : x.line = l ∧ x.region = g ∧ x.count = 1 := by
              simpa [HistoryEntry.identity] using identity
            exact hs.setSlot (line ▸ alone) (by simp [count]) ⟨r, region ▸ hr, line ▸ hc⟩
          have raised (x : HistoryEntry) (identity : x.identity = (l, g, 1)) :
              ((s.setSlot i (some x)).raiseAll events).HistorySound := (inserted x identity).of_eq (by simp)
          exact (raised _ rfl).thresholdTest i

theorem reportMerge (e : Entry) : (s.reportMerge e).HistorySound := by
  unfold State.reportMerge
  split
  · exact hs.reportWriteBack ..
  all_goals exact hs

theorem release (i : Fin 64) : (s.release i).HistorySound := hs.of_eq ⟨rfl, rfl⟩

theorem patrolWritten (i : Fin 64) (e : Entry) : (s.patrolWritten i e).HistorySound := by
  have raised (n : Notice) : (s.raise n).HistorySound := hs.of_eq ⟨rfl, rfl⟩
  unfold State.patrolWritten
  dsimp only
  refine release ?_ i
  split
  · split
    · exact (raised _).reportWriteBack ..
    · exact hs.reportWriteBack ..
  · exact raised _
  all_goals exact hs

/-! ### The completions -/

theorem writeTaken (i : Fin 64) (e : Entry) : (s.writeTaken i e).HistorySound := by
  have setup := State.writeTaken_setup i e s
  unfold State.writeTaken at setup ⊢
  split at setup
  · rename_i t _
    have answered : (s.respondEntry t .ok false zeroData).HistorySound := hs.of_eq (by simp)
    exact (answered.reportMerge e).of_eq (by simp [State.writeDone])
  · exact hs.patrolWritten i e
  · exact hs.patrolWritten i e
  · exact hs.of_setup setup (.of_eq (by simp))
  · exact hs.of_setup setup ((State.copySucceed_within e.region s).trans (.of_eq rfl))

theorem completion (op : MemoryOp) (tag status : Byte) {finish : Fin 64 → Entry → State → State}
    (hf : ∀ i e t, t.HistorySound → (finish i e t).HistorySound) :
    (s.completion op tag status finish).HistorySound := by
  unfold State.completion
  (repeat' split)
  · exact hs
  · exact hs.of_eq (by simp)
  · exact hs.of_eq (by simp)
  · exact hs.of_eq (by simp)
  · exact hs.of_eq (by simp)
  · exact hf _ _ _ (hs.of_eq (by simp))
  · rename_i r _ _ _ e _ _ _
    have failed (n : Notice) :=
      ((State.freeCredit_steady r.tag s).trans (State.raise_steady n _)).setup.trans (State.originFails_setup e .targetError _)
    exact hs.of_setup ((failed _).trans (State.release_steady _ _).setup) (State.targetError_within r.tag e s)

/-! ### The commands that touch regions -/

/-- R10: a region is defined where there was none, so no entry carries its index. -/
theorem regionDefine (b : ArgBlock) : (regionDefine b s).state.HistorySound := by
  obtain e | ⟨i, r, hi, -, -, -, -, e⟩ := regionDefine_cases b s <;> rw [e]
  · exact hs
  · refine hs.of_within (.of_eq rfl) fun _ x _ q hq hc => ⟨q, ?_, hc⟩
    rw [State.region_setRegion, if_neg fun hx : i = x.region => by simp [← hx, hi] at hq]
    exact hq

/-- A region in whose place another is written, where the entries that stay lie in the new one. -/
theorem replaceRegion {t : State} {i : Fin 32} {q : Region} (h : s.HistoryWithin t)
    (table : ∀ j, t.region j = if i = j then some q else s.region j)
    (inside : ∀ j e, t.slot j = some e → e.region = i → ∀ r, s.region i = some r → r.contains e.line = true →
      q.contains e.line = true) : t.HistorySound :=
  hs.of_within h fun j e he r hr hc => by
    rw [table]
    split
    · rename_i hi
      exact ⟨q, rfl, inside j e he hi.symm r (hi ▸ hr) hc⟩
    · exact ⟨r, hr, hc⟩

/-- R14: with new bounds the entries outside them are forgotten. -/
theorem regionModify (b : ArgBlock) : (regionModify b s).state.HistorySound := by
  obtain e | ⟨i, r, hr, -, -, e⟩ := regionModify_cases b s <;> rw [e]
  · exact hs
  · split
    · have forgotten := State.forgetHistory_within
        (fun e => decide (e.region = i) && !(modifiedRegion b r).contains e.line) s
      refine hs.replaceRegion (i := i) (q := modifiedRegion b r) (forgotten.trans (.of_eq rfl))
        (fun j => State.region_setRegion i j _ s) fun j x hx hi _ _ _ => ?_
      have slot : State.slot (State.boundsChanged i r (modifiedRegion b r) (s.setRegion i (some (modifiedRegion b r)))) j
          = (s.slot j).filter fun e => !(decide (e.region = i) && !(modifiedRegion b r).contains e.line) :=
        State.slot_forgetHistory _ (s.setRegion i (some (modifiedRegion b r))) j
      rw [slot] at hx
      simpa [hi] using (Option.filter_eq_some_iff.1 hx).2
    · rename_i h0
      refine hs.replaceRegion (.of_eq rfl) (fun j => State.region_setRegion i j _ s) fun j x _ _ q hq hc => ?_
      obtain rfl : r = q := Option.some.inj (hr.symm.trans hq)
      exact (modifiedRegion_contains (by simpa using h0) r x.line).trans hc

theorem regionState (b : ArgBlock) : (regionState b s).state.HistorySound := by
  obtain e | ⟨i, r, target, hr, -, -, e⟩ := regionState_cases b s <;> rw [e]
  · exact hs
  · exact hs.of_setup (State.setPhase_setup hr target) (.of_eq rfl)

/-- R19: the entries of a removed region are forgotten. -/
theorem regionRemove (b : ArgBlock) : (regionRemove b s).state.HistorySound := by
  obtain e | ⟨i, r, hr, -, -, e⟩ := regionRemove_cases b s <;> rw [e]
  · exact hs
  · obtain ⟨region, slots, -⟩ := State.regionRemoved_effect i r s
    refine hs.of_within ((State.forgetHistory_within (fun e => e.region = i) s).trans (.of_eq rfl)) fun j x hx q hq hc => ⟨q, ?_, hc⟩
    rw [slots] at hx
    have other : x.region ≠ i := by simpa using (Option.filter_eq_some_iff.1 hx).2
    rw [region, if_neg (Ne.symm other), hq]

/-- R108: a region in which a fill starts keeps its bounds. -/
theorem fillStart (b : ArgBlock) : (fillStart b s).state.HistorySound := by
  obtain e | ⟨i, r, hr, -, -, e⟩ := fillStart_cases b s <;> rw [e]
  · exact hs
  · have filling := hs.of_setup (State.setPhase_setup hr .filling) (.of_eq rfl)
    exact filling.of_eq (by simp [State.startFill])

theorem fillStop (b : ArgBlock) : (fillStop b s).state.HistorySound := by
  obtain e | ⟨f, -, -, e⟩ := fillStop_cases b s <;> rw [e]
  · exact hs
  · exact hs.of_setup (State.fillAdvance_setup _ s) (.of_eq (by simp))

theorem historyClear (b : ArgBlock) : (historyClear b s).state.HistorySound := by
  have forgotten (p : HistoryEntry → Bool) : (s.forgetHistory p).HistorySound :=
    hs.of_setup (State.Steady.setup (.of_fields (by simp))) (State.forgetHistory_within p s)
  dsimp only [Machine.historyClear]
  (repeat' split)
  · exact hs
  · exact hs
  · exact forgotten _
  · exact forgotten _
  · exact hs

theorem retireCancel (b : ArgBlock) : (retireCancel b s).state.HistorySound := by
  refine hs.of_setup (retireCancel_steady b s).setup ?_
  dsimp only [Machine.retireCancel]
  (repeat' split)
  · exact .refl s
  · exact (State.HistoryWithin.of_eq (by simp)).trans (State.noticeEnded_within _ _ _)
  · exact .refl s
  · exact .refl s

theorem commandOf {k : Nat} {c : Command} {f : State → Reply} (h : commandOf k c = some f) :
    (f s).state.HistorySound := by
  unfold Machine.commandOf at h
  split at h <;> cases h
  · exact hs.regionDefine _
  · exact hs.regionModify _
  · exact hs.regionState _
  · exact hs.regionRemove _
  · refine hs.of_setup (regionQuery_steady _ s).setup (.of_eq ?_)
    unfold regionQuery
    (repeat' split) <;> simp [done, refuse]
  · obtain e | ⟨_, _, -, e⟩ := patrolSet_cases c.block s <;> rw [e]
    exacts [hs, hs.of_eq ⟨rfl, rfl⟩]
  · exact hs.fillStart _
  · exact hs.fillStop _
  · dsimp only [historyQuery]
    split <;> exact hs
  · exact hs.historyClear _
  · obtain e | ⟨_, _, -, -, -, e⟩ := spareSet_cases c.block s <;> rw [e]
    exacts [hs, hs.of_eq ⟨rfl, rfl⟩]
  · dsimp only [spareMark]
    (repeat' split) <;> exact hs.of_eq (by simp [refuse, done])
  · exact hs
  · dsimp only [retireLine]
    split <;> exact hs.of_eq (by simp [refuse, started])
  · exact hs.retireCancel _
  · dsimp only [retireLoad]
    (repeat' split) <;> exact hs.of_eq (by simp [refuse, done, State.loadRetired])
  · dsimp only [retireQuery]
    (repeat' split) <;> exact hs
  · obtain e | ⟨_, -, e⟩ := timeoutSet_cases c.block s <;> rw [e]
    exacts [hs, hs.of_eq ⟨rfl, rfl⟩]
  · dsimp only [eventGrant]
    split <;> exact hs.of_eq ⟨rfl, rfl⟩
  · obtain e | ⟨_, -, e⟩ := managerSet_cases c.block s <;> rw [e]
    exacts [hs, hs.of_eq ⟨rfl, rfl⟩]
  · exact hs.of_eq ⟨rfl, rfl⟩
  · exact hs

theorem serveCommand : s.serveCommand.HistorySound := by
  unfold State.serveCommand
  split
  · rename_i c rest _
    have taken : (s.takeCommand rest).HistorySound := hs.of_eq (by simp)
    have processed : ((s.takeCommand rest).process c).state.HistorySound := by
      unfold State.process
      (repeat' split)
      · exact taken.commandOf ‹_›
      · exact taken
      · exact taken.of_eq ⟨rfl, rfl⟩
    exact processed.of_eq (by simp [Reply.send])
  · exact hs

end State.HistorySound

theorem operationsKeep_historySound : OperationsKeep State.HistorySound where
  closeEvent _ hs := hs.of_eq ⟨rfl, rfl⟩
  pending _ _ hs := hs.of_eq ⟨rfl, rfl⟩
  reset _ _ :=
    ⟨by simp [State.slot, State.reset], by simp [State.slot, State.reset], by simp [State.slot, State.reset]⟩
  ownershipPass _ hs := hs.of_eq (by simp)
  repairService _ hs := hs.of_eq (by simp)
  fillIssue _ hs := hs.of_eq (by simp)
  copyStart _ hs := hs.of_eq (by simp)
  acceptance s hs := hs.of_setup s.acceptance_steady.setup (.of_eq (by simp))
  serveCommand _ hs := hs.serveCommand
  issueGrant _ hs := hs.of_eq (by simp)
  eventDelivery _ hs := hs.of_eq (by simp)
  requesterHello _ hs := hs.of_eq (by simp)
  requesterFall w _ hs := hs.of_eq (by simp)
  requestArrives q _ hs := hs.of_eq (by simp)
  commandArrives c _ hs := hs.of_eq (by simp)
  requesterBad k n _ hs := hs.of_eq (by simp)
  transmitPacket _ hs := hs.of_eq (by simp)
  memoryHello n k s hs := hs.of_setup (State.memoryHello_steady n k s).setup (State.memoryHello_within n k s)
  memoryLoss w s hs := hs.of_setup (State.memoryLoss_setup w s) (State.memoryLoss_within w s)
  helloExpiry _ hs := hs.of_eq (by simp)
  memoryBad _ _ _ hs := hs.of_eq (by simp)
  sdata tag status l _ hs := hs.completion _ tag status fun i e t ht =>
    ht.of_setup (State.readTaken_steady i e l t).setup (.of_eq (by simp))
  sdone tag status _ hs := hs.completion _ tag status fun _ _ _ ht => ht.writeTaken _ _
  timeoutExpiry i s hs := hs.of_setup (State.timeoutExpiry_setup i s) (State.timeoutExpiry_within i s)
  slotExpiry s hs := hs.of_setup s.slotExpiry_setup (.of_eq (by simp))
  tick _ hs := hs.of_eq ⟨rfl, rfl⟩

end Sys2Proof.Machine
end

section
/-! SUPPORT. Failed fill writes (O30): the failed line that is recorded, and how a FAILING fill goes on or ends; and
the rows of FILL_START and FILL_STOP (O46). -/

namespace Sys2Proof.Machine

/-! ### Failed fill writes -/

/-- R114: a fill that records a failed line exactly while it is FAILING keeps the first. -/
theorem Fill.fail_failed {f : Fill} (h : f.failed.isSome ↔ f.phase = .failing) (l physical : LineNo)
    (why : FillFailure) : (f.fail l physical why).failed =
      some (f.failed.getD { line := l, physical := physical, reason := why }) := by
  cases hx : f.failed with
  | some first =>
    have failing : f.phase = .failing := h.1 (by simp [hx])
    exact (if_pos failing).trans hx
  | none =>
    have notFailing : f.phase ≠ .failing := fun hp => by simpa [hx] using h.2 hp
    exact if_neg notFailing

theorem State.fillWriteFailed_of_fill {s : State} {f : Fill} (h : s.patrol.fill = some f) (l physical : LineNo)
    (why : FillFailure) : s.fillWriteFailed l physical why = s.fillAdvance (f.fail l physical why) := by
  simp only [State.fillWriteFailed, h]

/-- Settles O30: the failed line that is recorded, then by the lines that are still outstanding. -/
theorem failedFillWritesEndTheFill : Obligations.FailedFillWritesEndTheFill := by
  intro s f r l physical why hf hr sound first rest failing
  have recorded : f.fail l physical why = failing := by
    have kept : (f.fail l physical why).failed = some first := Fill.fail_failed sound l physical why
    calc f.fail l physical why
      _ = { failing with failed := (f.fail l physical why).failed } := rfl
      _ = failing := by rw [kept]
  have advance : s.fillWriteFailed l physical why = s.fillAdvance failing := by
    rw [State.fillWriteFailed_of_fill hf, recorded]
  refine ⟨fun left => advance.trans ?_, fun noneLeft => advance.trans ?_⟩
  · exact State.fillAdvance_of_goesOn (.inr ⟨nofun, left⟩)
  · refine (State.fillAdvance_of_failed (f := failing) (x := first) rfl noneLeft rfl hr).trans ?_
    cases first.reason <;> rfl

/-! ### FILL_START -/

/-- The checks of FILL_START on a region, in order (R107), and the start of its fill (R108). -/
theorem fillStart_of_region {b : ArgBlock} {s : State} {i : Fin 32} {r : Region} (hi : argIndex b = some i)
    (hr : s.region i = some r) :
    fillStart b s =
      if r.phase ≠ .offline then refuse .state s
      else if s.refersTo i = true ∨ s.patrol.fill ≠ none then refuse .busy s
      else if s.memory.link = .down then refuse .linkDown s
      else if ¬s.belowCapacity r.limit = true then refuse .badArgument s
      else if s.management.frozen = true ∧ r.fixed = true then refuse .frozen s
      else started (.fill i (some r.base)) (s.startFill i r) := by
  simp only [fillStart, hi, hr, ite_or, ← Option.isSome_iff_ne_none]

/-! ### FILL_STOP -/

/-- R113: with no fill ISSUING there is none to stop. -/
theorem fillStop_of_notIssuing {s : State} (h : ∀ f, s.patrol.fill = some f → f.phase ≠ .issuing) (b : ArgBlock) :
    fillStop b s = refuse .state s := by
  cases hf : s.patrol.fill with
  | none => simp only [fillStop, hf]
  | some f => simp only [fillStop, hf, if_pos (h f hf)]

/-- R113: an ISSUING fill is stopped, and goes on or ends as a STOPPING one. -/
theorem fillStop_of_issuing {s : State} {f : Fill} (hf : s.patrol.fill = some f) (hp : f.phase = .issuing)
    (b : ArgBlock) : fillStop b s =
      started (.fill f.region f.watermark) (s.fillAdvance { f with phase := .stopping }) := by
  simp only [fillStop, hf, if_neg (not_not.2 hp)]

/-- A command that has begun an operation is answered STARTED. -/
theorem Reply.send_started (c : Command) (r : Result) (s : State) : (started r s).send c = s.answer c .started r := rfl

/-- Settles O46: the checks of FILL_START one after another; and FILL_STOP by the fill, its phase and what it has
outstanding. -/
theorem fillsStartAndStop : Obligations.FillsStartAndStop := by
  constructor
  · intro before c rest s head refused
    have row : exec .fillStart before = .next ((fillStart c.block (s.takeCommand rest)).send c) :=
      congrArg _ (head.serveIf rfl)
    have refusedBy {why : RefusedReason}
        (h : fillStart c.block (s.takeCommand rest) = refuse why (s.takeCommand rest)) : refused why :=
      Reply.refused_row row h
    refine ⟨fun hi => refusedBy (by simp [fillStart, hi]), fun i hi => ⟨fun hr => ?_, fun r hr => ?_⟩⟩
    · exact refusedBy (by simp [fillStart, hi, hr])
    intro held busy beyond closed
    have busyIff : (s.refersTo i = true ∨ s.patrol.fill ≠ none) ↔ busy := or_congr_left State.refersTo_iff
    have beyondIff : ¬s.belowCapacity r.limit = true ↔ beyond := by simp [beyond, State.belowCapacity_iff]
    have checks := fillStart_of_region (s := s.takeCommand rest) hi hr
    refine ⟨fun hp => refusedBy (checks.trans (if_pos hp)), fun hp => ?_⟩
    have offline := checks.trans (if_neg (not_not.2 hp))
    have free (hb : ¬busy) := offline.trans (if_neg (mt busyIff.1 hb))
    have linked (hb : ¬busy) (up : s.memory.link = .up) :=
      (free hb).trans (if_neg (show ¬s.memory.link = .down by simp [up]))
    refine ⟨fun hb => refusedBy (offline.trans (if_pos (busyIff.2 hb))), fun hb down => refusedBy ?_,
      fun hb up hc => refusedBy ?_, fun hb up hc hz => refusedBy ?_, fun hb up hc hz => ?_⟩
    · exact (free hb).trans (if_pos down)
    · exact (linked hb up).trans (if_pos (beyondIff.2 hc))
    · exact (linked hb up).trans ((if_neg (mt beyondIff.1 hc)).trans (if_pos hz))
    · rw [row, (linked hb up).trans ((if_neg (mt beyondIff.1 hc)).trans (if_neg hz))]
      rfl
  · intro before c rest s head
    have row : exec .fillStop before = .next ((fillStop c.block (s.takeCommand rest)).send c) :=
      congrArg _ (head.serveIf rfl)
    refine ⟨fun notIssuing => Reply.refused_row row (fillStop_of_notIssuing (s := s.takeCommand rest) notIssuing _),
      fun f hf hp => ?_⟩
    have stopped {u : State} (h : (s.takeCommand rest).fillAdvance { f with phase := .stopping } = u) :
        exec .fillStop before = .next (u.answer c .started (.fill f.region f.watermark)) := by
      rw [row, fillStop_of_issuing (s := s.takeCommand rest) hf hp, Reply.send_started, h]
    refine ⟨fun left => stopped ?_, fun r w noneLeft hw hr => ?_⟩
    · exact State.fillAdvance_of_goesOn (.inr ⟨nofun, left⟩)
    · rw [← hw]
      have ended := State.fillAdvance_of_stopped (s := s.takeCommand rest) (f := { f with phase := .stopping })
        rfl noneLeft hr
      refine stopped (ended.trans ?_)
      simp only [hw]
      rfl

end Sys2Proof.Machine
end

section
/-! SUPPORT. The error history table at work (O39): which slot a new entry takes, the checks of a retirement, and the
threshold test of a counted report. -/

namespace Sys2Proof.Machine

/-! ### The slot of a line, and the slot that is taken -/

/-- R118: no line has two entries, so a line is found in the slot of its entry. -/
theorem State.HistorySound.historySlot {s : State} (hs : s.HistorySound) {i : Fin 128} {e : HistoryEntry}
    (he : s.slot i = some e) : s.historySlot e.line = some i := by
  cases hj : s.historySlot e.line with
  | none => exact absurd rfl (State.historySlot_eq_none hj he)
  | some j =>
    obtain ⟨f, hf, hl⟩ := State.historySlot_eq_some hj
    rw [hs.unique j i f e hf he hl]

theorem State.historySlot_of_absent {s : State} {l : LineNo} (h : ∀ i e, s.slot i = some e → e.line ≠ l) :
    s.historySlot l = none :=
  List.find?_eq_none.2 fun i _ => by simpa [Option.any_eq_true] using h i

theorem State.emptySlot_eq_some {s : State} {i : Fin 128} :
    s.emptySlot = some i ↔ s.slot i = none ∧ ∀ j, j < i → s.slot j ≠ none := by
  simp [State.emptySlot, find?_finRange_eq_some, ← Option.isSome_iff_ne_none]

/-- R122: an empty slot is taken before any entry is evicted. -/
theorem State.takeSlot_of_empty {s : State} {i : Fin 128} (h : s.emptySlot = some i) : s.takeSlot = some (i, []) := by
  simp only [State.takeSlot, h]

/-- R122: with no slot empty, the slot of the evicted entry is taken; a count of 2 or more is reported. -/
theorem State.takeSlot_of_full {s : State} {i : Fin 128} {e : HistoryEntry} (full : ∀ j, s.slot j ≠ none)
    (h : s.evictee = some (i, e)) :
    s.takeSlot = some (i,
      if 2 ≤ e.count then
        [{ kind := .historyEvict, line := some e.line, region := some e.region, count := some e.count
           reason := some e.retire.reason }]
      else []) := by
  have noEmpty : s.emptySlot = none := List.find?_eq_none.2 fun j _ => by simpa using full j
  simp only [State.takeSlot, noEmpty, h]

/-- R122: the reason of HISTORY_EVICT tells whether the entry was DEFERRED. -/
theorem RetireState.reason_eq (x : RetireState) : x.reason = if x = .deferred then .deferred else .none := by
  cases x <;> rfl

/-! ### The entry that is evicted -/

theorem HistoryEntry.before_iff {now : Time} {e f : HistoryEntry} : e.before now f = true ↔
    e.count < f.count ∨ (e.count = f.count ∧ elapsed now f.updated < elapsed now e.updated) := by
  simp [HistoryEntry.before]

/-- One slot of the search for the entry to evict: `best` is the best of the slots before it. -/
def State.evictStep (s : State) (best : Option (Fin 128 × HistoryEntry)) (i : Fin 128) :
    Option (Fin 128 × HistoryEntry) :=
  match s.slot i with
  | none => best
  | some e =>
    if e.retire = .queued then best
    else match best with
      | none => some (i, e)
      | some (j, f) => if e.before s.now f then some (i, e) else some (j, f)

theorem State.evictee_eq_foldl (s : State) : s.evictee = (List.finRange 128).foldl s.evictStep none := rfl

/-- A slot's entry that goes before the best so far is the best. -/
theorem State.evictStep_of_before {s : State} {i : Fin 128} {e : HistoryEntry} (he : s.slot i = some e)
    (free : e.retire ≠ .queued) {best : Option (Fin 128 × HistoryEntry)}
    (first : ∀ x ∈ best, e.before s.now x.2 = true) : s.evictStep best i = some (i, e) := by
  cases best with
  | none => simp only [State.evictStep, he, if_neg free]
  | some x => simp only [State.evictStep, he, if_neg free, if_pos (first x rfl)]

/-- A slot without an entry that goes before the best so far changes nothing. -/
theorem State.evictStep_of_not_before {s : State} {i : Fin 128} {x : Fin 128 × HistoryEntry}
    (h : ∀ e, s.slot i = some e → e.retire ≠ .queued → ¬e.before s.now x.2 = true) :
    s.evictStep (some x) i = some x := by
  cases he : s.slot i with
  | none => simp only [State.evictStep, he]
  | some e =>
    by_cases hq : e.retire = .queued
    · simp only [State.evictStep, he, if_pos hq]
    · simp only [State.evictStep, he, if_neg hq, if_neg (h e he hq)]

/-- What a slot makes the best is its own entry, which is not QUEUED, or was the best before. -/
theorem State.mem_evictStep {s : State} {best : Option (Fin 128 × HistoryEntry)} {i : Fin 128}
    {x : Fin 128 × HistoryEntry} (h : x ∈ s.evictStep best i) :
    x ∈ best ∨ (x.1 = i ∧ s.slot i = some x.2 ∧ x.2.retire ≠ .queued) := by
  have own {e : HistoryEntry} (he : s.slot i = some e) (hq : ¬e.retire = .queued) (hx : x ∈ some (i, e)) :
      x.1 = i ∧ s.slot i = some x.2 ∧ x.2.retire ≠ .queued := by
    obtain rfl : (i, e) = x := Option.some.inj hx
    exact ⟨rfl, he, hq⟩
  unfold State.evictStep at h
  (repeat' split at h)
  · exact .inl h
  · exact .inl h
  · exact .inr (own ‹_› ‹_› h)
  · exact .inr (own ‹_› ‹_› h)
  · exact .inl h

/-- The best of some slots stands in one of them and is not QUEUED. -/
theorem State.mem_foldl_evictStep {s : State} {l : List (Fin 128)} {best : Option (Fin 128 × HistoryEntry)}
    {x : Fin 128 × HistoryEntry} (h : x ∈ l.foldl s.evictStep best) :
    x ∈ best ∨ (x.1 ∈ l ∧ s.slot x.1 = some x.2 ∧ x.2.retire ≠ .queued) := by
  induction l generalizing best with
  | nil => exact .inl h
  | cons i is ih =>
    obtain hx | ⟨hx, slot⟩ := ih h
    · obtain hx | ⟨rfl, slot⟩ := State.mem_evictStep hx
      · exact .inl hx
      · exact .inr ⟨List.mem_cons_self, slot⟩
    · exact .inr ⟨List.mem_cons_of_mem i hx, slot⟩

/-- An entry that no entry of some slots goes before stays the best. -/
theorem State.foldl_evictStep_of_not_before {s : State} {l : List (Fin 128)} {x : Fin 128 × HistoryEntry}
    (h : ∀ j ∈ l, ∀ f, s.slot j = some f → f.retire ≠ .queued → ¬f.before s.now x.2 = true) :
    l.foldl s.evictStep (some x) = some x := by
  induction l with
  | nil => rfl
  | cons i is ih =>
    rw [List.foldl_cons, State.evictStep_of_not_before (h i List.mem_cons_self)]
    exact ih fun j hj => h j (List.mem_cons_of_mem i hj)

/-- R122: the entry that is evicted goes before every candidate of a lower slot, and none of a higher slot goes before it. -/
theorem State.evictee_eq_some {s : State} {i : Fin 128} {e : HistoryEntry} (he : s.slot i = some e)
    (free : e.retire ≠ .queued)
    (lower : ∀ j f, s.slot j = some f → f.retire ≠ .queued → j < i → e.before s.now f = true)
    (higher : ∀ j f, s.slot j = some f → f.retire ≠ .queued → i < j → ¬f.before s.now e = true) :
    s.evictee = some (i, e) := by
  obtain ⟨as, bs, split⟩ := List.append_of_mem (List.mem_finRange i)
  have ascending := List.pairwise_lt_finRange 128
  rw [split] at ascending
  obtain ⟨-, tail, before⟩ := List.pairwise_append.1 ascending
  have after := (List.pairwise_cons.1 tail).1
  have taken : s.evictStep (as.foldl s.evictStep none) i = some (i, e) := by
    refine State.evictStep_of_before he free fun x hx => ?_
    obtain hx | ⟨hx, slot, notQueued⟩ := State.mem_foldl_evictStep hx
    · exact absurd hx (by simp)
    · exact lower x.1 x.2 slot notQueued (before x.1 hx i List.mem_cons_self)
  rw [State.evictee_eq_foldl, split, List.foldl_append, List.foldl_cons, taken]
  exact State.foldl_evictStep_of_not_before fun j hj f hf hq => higher j f hf hq (after j hj)

/-- R122, items 1 to 3: of the entries that are not QUEUED, the one of the lowest count, the oldest of those, in the lowest
slot of those. -/
theorem State.evictee_of_least {s : State} {i : Fin 128} {e : HistoryEntry} (he : s.slot i = some e)
    (free : e.retire ≠ .queued)
    (least : ∀ j f, s.slot j = some f → f.retire ≠ .queued → j ≠ i →
      e.count < f.count ∨ (e.count = f.count ∧ (elapsed s.now f.updated < elapsed s.now e.updated
        ∨ (elapsed s.now f.updated = elapsed s.now e.updated ∧ i < j)))) : s.evictee = some (i, e) := by
  refine State.evictee_eq_some he free (fun j f hf hq hj => ?_) fun j f hf hq hj => ?_
  · have := least j f hf hq hj.ne
    have := hj.asymm
    rw [HistoryEntry.before_iff]
    tauto
  · have := least j f hf hq hj.ne'
    rw [HistoryEntry.before_iff]
    omega

/-! ### The checks of a retirement -/

theorem SpareArea.lowestFree_eq_none {a : SpareArea} : a.lowestFree = none ↔ .free ∉ a.spares := by
  simp only [SpareArea.lowestFree, List.findIdx?_eq_none_iff, decide_eq_false_iff_not]
  exact ⟨fun h hf => h _ hf rfl, fun h x hx e => h (e ▸ hx)⟩

theorem SpareArea.lowestFree_eq_some {a : SpareArea} {i : Nat} : a.lowestFree = some i ↔
    a.spares[i]? = some .free ∧ ∀ j, j < i → a.spares[j]? ≠ some .free := by
  rw [SpareArea.lowestFree, List.findIdx?_eq_some_iff_getElem, List.getElem?_eq_some_iff]
  constructor
  · rintro ⟨hi, free, first⟩
    refine ⟨⟨hi, by simpa using free⟩, fun j hj hf => first j hj ?_⟩
    obtain ⟨_, hf⟩ := List.getElem?_eq_some_iff.1 hf
    simpa using hf
  · rintro ⟨⟨hi, free⟩, first⟩
    refine ⟨hi, by simpa using free, fun j hj hf => first j hj ?_⟩
    exact List.getElem?_eq_some_iff.2 ⟨hj.trans hi, by simpa using hf⟩

/-- R139: whether a line is already to be retired: it stands in the retire queue, or it is being copied. -/
theorem Retirement.pending_iff {r : Retirement} {l : LineNo} : (r.queued l = true ∨ r.copying l = true) ↔
    (∃ q ∈ r.queue, q.line = l) ∨ ∃ j, r.copy = some j ∧ j.line = l := by
  simp [Retirement.queued, Retirement.copying, Option.any_eq_true]

/-- R140: with no spare area nothing is retired. -/
theorem State.retireCheck_of_noArea {s : State} (h : s.retirement.area = none) (l : LineNo) :
    s.retireCheck l = .noSpareArea := by
  simp only [State.retireCheck, h]

/-- R140: the checks of a retirement where a spare area is defined, in order. -/
theorem State.retireCheck_of_area {s : State} {a : SpareArea} (h : s.retirement.area = some a) (l : LineNo) :
    s.retireCheck l =
      if ¬s.belowCapacity l = true then .beyondCapacity
      else if a.contains l = true then .inSpareArea
      else if s.retirement.queued l = true ∨ s.retirement.copying l = true then .pending
      else if 8 ≤ s.retirement.queue.length then .queueFull
      else a.lowestFree.elim .noneFree fun i =>
        if s.retirement.unavailable = true then .unavailable else .accepted i := by
  cases hf : a.lowestFree <;> simp only [State.retireCheck, h, hf] <;> rfl

/-- R140: an accepted retirement reserves its spare and joins the retire queue. -/
theorem State.enqueueRetire_of_area {s : State} {a : SpareArea} (h : s.retirement.area = some a) (l : LineNo)
    (o : RetireOrigin) (i : Nat) : s.enqueueRetire l o i =
      { s with retirement :=
          { s.retirement with
            area := some { a with spares := a.spares.set i .reserved }
            queue := s.retirement.queue ++ [{ line := l, origin := o, spare := i }] } } := by
  simp only [State.enqueueRetire, State.setSpare, h]

/-! ### A counted report -/

theorem State.setSlot_setSlot (i : Fin 128) (x y : Option HistoryEntry) (s : State) :
    (s.setSlot i x).setSlot i y = s.setSlot i y := by
  simp [State.setSlot]

theorem State.setRetireState_setSlot (i : Fin 128) (e : HistoryEntry) (x : RetireState) (s : State) :
    (s.setSlot i (some e)).setRetireState i x = s.setSlot i (some { e with retire := x }) := by
  rw [State.setRetireState, State.slot_setSlot, if_pos rfl, State.setSlot_setSlot, Option.map_some]

theorem State.enqueueRetire_setSlot (i : Fin 128) (x : Option HistoryEntry) (l : LineNo) (o : RetireOrigin) (n : Nat)
    (s : State) : (s.setSlot i x).enqueueRetire l o n = (s.enqueueRetire l o n).setSlot i x := by
  cases h : s.retirement.area <;> simp [State.enqueueRetire, State.setSpare, State.setSlot, h]

theorem State.raiseAll_eq_pushAll (ns : List Notice) (s : State) :
    s.raiseAll ns = { s with events := s.events.pushAll ns } := by
  induction ns generalizing s with
  | nil => rfl
  | cons n ns ih => exact ih (s.raise n)

theorem State.raiseAll_setSlot (i : Fin 128) (x : Option HistoryEntry) (ns : List Notice) (s : State) :
    (s.setSlot i x).raiseAll ns = State.setSlot i x { s with events := s.events.pushAll ns } :=
  State.raiseAll_eq_pushAll ns _

/-- R123: the test of an entry that has just counted. -/
theorem State.thresholdTest_setSlot {v : State} {e : HistoryEntry} {r : Region} (hr : v.region e.region = some r)
    (i : Fin 128) : (v.setSlot i (some e)).thresholdTest i =
      if r.threshold = 0 ∨ e.count < r.threshold ∨ e.retire = .queued then v.setSlot i (some e)
      else (v.setSlot i (some e)).autoAnswer i e (v.retireCheck e.line) := by
  have slot : (v.setSlot i (some e)).slot i = some e := by rw [State.slot_setSlot, if_pos rfl]
  have region : (v.setSlot i (some e)).region e.region = some r := hr
  have check : (v.setSlot i (some e)).retireCheck e.line = v.retireCheck e.line := rfl
  have sent : (r.threshold ≠ 0 ∧ r.threshold ≤ e.count ∧ e.retire ≠ .queued) ↔
      ¬(r.threshold = 0 ∨ e.count < r.threshold ∨ e.retire = .queued) := by rw [not_or, not_or, not_lt]
  simp only [State.thresholdTest, slot, region, check, sent, ite_not]

/-- R121: the line has an entry, which counts. -/
theorem State.reportWriteBack_of_slot {s : State} {l : LineNo} {g : Fin 32} {r : Region} (hr : s.region g = some r)
    (inside : r.contains l = true) {i : Fin 128} {e : HistoryEntry} (hi : s.historySlot l = some i)
    (he : s.slot i = some e) (p : Fin 72) (o : WriteBackOrigin) : s.reportWriteBack l g p o =
      (s.setSlot i (some
        { e with count := min (e.count + 1) 15, symbol := p, origin := o, updated := s.now })).thresholdTest i := by
  simp only [State.reportWriteBack, hr, if_neg (not_not.2 inside), hi, he, Option.map_some]

/-- R121, R122: the line has no entry; one is inserted. -/
theorem State.reportWriteBack_of_absent {s : State} {l : LineNo} {g : Fin 32} {r : Region} (hr : s.region g = some r)
    (inside : r.contains l = true) (absent : s.historySlot l = none) {i : Fin 128} {evicted : List Notice}
    (taken : s.takeSlot = some (i, evicted)) (p : Fin 72) (o : WriteBackOrigin) : s.reportWriteBack l g p o =
      (State.setSlot i (some
        { line := l, region := g, count := 1, symbol := p, origin := o, updated := s.now, retire := .none })
        { s with events := s.events.pushAll evicted }).thresholdTest i := by
  simp only [State.reportWriteBack, hr, if_neg (not_not.2 inside), absent, taken, State.raiseAll_setSlot]

/-- R124: an accepted request takes its spare, and its entry is QUEUED. -/
theorem State.autoAnswer_accepted (i : Fin 128) (e : HistoryEntry) (n : Nat) (v : State) :
    (v.setSlot i (some e)).autoAnswer i e (.accepted n) =
      ((v.enqueueRetire e.line .auto n).setSlot i (some { e with retire := .queued })).raise
        { kind := .retireQueued, line := some e.line, region := some e.region, count := some e.count
          spare := some n } := by
  simp only [State.autoAnswer, State.enqueueRetire_setSlot, State.setRetireState_setSlot]

/-- Settles O39, clause by clause: the report, by whether the line has an entry; the slot that is taken, by whether one is
empty; the checks of a retirement, one after another; and the queue entry of an accepted one. -/
theorem correctedWriteBacksAreCounted : Obligations.CorrectedWriteBacksAreCounted := by
  refine ⟨?_, fun s i empty lowest => ?_, fun s i e full he free least => ?_, fun s l => ?_, fun s a l o i ha => ?_⟩
  · intro s l g r p o hr after fresh
    have tested (i : Fin 128) {e : HistoryEntry} {v : State} (hv : v.region g = some r) (hl : e.line = l)
        (hg : e.region = g) : (v.setSlot i (some e)).thresholdTest i = after i e v := by
      subst hl hg
      rw [State.thresholdTest_setSlot hv]
      refine ite_congr rfl (fun _ => rfl) fun _ => ?_
      cases v.retireCheck e.line
      case accepted n => exact State.autoAnswer_accepted i e n v
      case inSpareArea | pending => rfl
      all_goals simp only [State.autoAnswer, State.setRetireState_setSlot]
    refine ⟨fun outside => ?_, fun inside i e hs he hl hg => ?_, fun inside absent i evicted taken => ?_⟩
    · simp [State.reportWriteBack, hr, outside]
    · rw [State.reportWriteBack_of_slot hr inside (hl ▸ hs.historySlot he) he]
      exact tested i hr hl hg
    · rw [State.reportWriteBack_of_absent hr inside (State.historySlot_of_absent absent) taken]
      exact tested i hr rfl rfl
  · exact State.takeSlot_of_empty (State.emptySlot_eq_some.2 ⟨empty, lowest⟩)
  · rw [State.takeSlot_of_full full (State.evictee_of_least he free least), RetireState.reason_eq]
  · refine ⟨fun noArea => State.retireCheck_of_noArea noArea l, ?_⟩
    intro a ha below inArea pending
    have checks := State.retireCheck_of_area ha l
    have hBelow : s.belowCapacity l = true ↔ below := State.belowCapacity_iff
    have hArea : a.contains l = true ↔ inArea := SpareArea.contains_iff
    have hPending : (s.retirement.queued l = true ∨ s.retirement.copying l = true) ↔ pending :=
      Retirement.pending_iff
    simp only [hBelow, hArea, hPending] at checks
    refine ⟨fun b => checks.trans (if_pos b), fun b ia => ?_, fun b ia pe => ?_, fun b ia pe long => ?_,
      fun b ia pe short => ?_⟩
    · simp only [checks, b, ia, not_true_eq_false, if_true, if_false]
    · simp only [checks, b, ia, pe, not_true_eq_false, if_true, if_false]
    · simp only [checks, b, ia, pe, long, not_true_eq_false, if_true, if_false]
    · simp only [b, ia, pe, not_le.2 short, not_true_eq_false, if_false] at checks
      refine ⟨fun noneFree => ?_, fun i free first => ?_⟩
      · rw [checks, SpareArea.lowestFree_eq_none.2 noneFree, Option.elim_none]
      · rw [SpareArea.lowestFree_eq_some.2 ⟨free, first⟩, Option.elim_some] at checks
        exact ⟨fun unavailable => checks.trans (if_pos unavailable),
          fun available => checks.trans (if_neg (by simp [available]))⟩
  · exact State.enqueueRetire_of_area ha l o i

end Sys2Proof.Machine
end

section
/-! SUPPORT. The commands of the error history table (O47): the walk of HISTORY_QUERY, and the entries that HISTORY_CLEAR
deletes. -/

namespace Sys2Proof.Machine

/-! ### HISTORY_QUERY -/

/-- R127: a walk that returns every occupied slot from its start is at its END. -/
theorem nextSlotOf_of_all {all : List (Nat × HistoryEntry)} {n : Nat} (h : all.length ≤ n) :
    nextSlotOf all (all.take n) = none :=
  if_pos (by rw [List.take_of_length_le h])

/-- R127: a walk that leaves some slots goes on behind the last one returned. -/
theorem nextSlotOf_of_more {all : List (Nat × HistoryEntry)} {n : Nat} {x : Nat × HistoryEntry}
    (more : n + 1 < all.length) (last : all[n]? = some x) : nextSlotOf all (all.take (n + 1)) = some (x.1 + 1) := by
  have left : ¬all.length ≤ (all.take (n + 1)).length := by
    rw [List.length_take]
    omega
  rw [nextSlotOf, if_neg left, List.getLast?_take, if_neg n.succ_ne_zero, Nat.add_sub_cancel, last]
  rfl

/-! ### HISTORY_CLEAR -/

/-- R128: an entry is deleted unless it is one that stays. -/
theorem State.forgetHistory_eq {p q : HistoryEntry → Bool} (h : ∀ e, (!p e) = q e) (s : State) :
    s.forgetHistory p = { s with history := s.history.map fun x => x.filter q } := by
  rw [State.forgetHistory, funext h]

/-- The entries of the occupied slots with a property, counted over all slots. -/
theorem State.countP_slotsFrom (p : HistoryEntry → Bool) (s : State) :
    (s.slotsFrom 0).countP (fun x => p x.2) = (List.finRange 128).countP fun i => (s.slot i).any p := by
  rw [State.slotsFrom, List.countP_filterMap]
  refine List.countP_congr fun i _ => ?_
  cases s.slot i <;> simp

/-- R128: the command on one line whose entry is not there. -/
theorem historyClear_of_absent {b : ArgBlock} {s : State} (one : argNat b 4 1 = 1)
    (absent : s.historySlot (argLine b 12) = none) : historyClear b s = refuse .notFound s := by
  simp only [historyClear, one, absent, if_true, Option.bind_none]

/-- R128: the command on one line that has an entry. -/
theorem historyClear_of_slot {b : ArgBlock} {s : State} (one : argNat b 4 1 = 1) {i : Fin 128} {e : HistoryEntry}
    (hi : s.historySlot (argLine b 12) = some i) (he : s.slot i = some e) : historyClear b s =
      if e.retire = .queued then refuse .busy s
      else done .empty (s.forgetHistory fun e => e.line = argLine b 12) := by
  simp only [historyClear, one, hi, he, if_true, Option.bind_some]

/-- R128: the command on every line answers how many entries it deletes and how many stay. -/
theorem historyClear_of_all {b : ArgBlock} {s : State} (all : argNat b 4 1 = 2) : historyClear b s =
    done (.cleared ((List.finRange 128).countP fun i => (s.slot i).any fun x => decide (x.retire ≠ .queued))
        ((List.finRange 128).countP fun i => (s.slot i).any fun x => decide (x.retire = .queued)))
      (s.forgetHistory fun e => e.retire ≠ .queued) := by
  have kept : ((s.slotsFrom 0).filter fun x => x.2.retire = .queued).length
      = (List.finRange 128).countP fun i => (s.slot i).any fun x => decide (x.retire = .queued) := by
    rw [← List.countP_eq_length_filter, ← State.countP_slotsFrom]
  have total : (s.slotsFrom 0).length
      = ((List.finRange 128).countP fun i => (s.slot i).any fun x => decide (x.retire = .queued))
        + (List.finRange 128).countP fun i => (s.slot i).any fun x => decide (x.retire ≠ .queued) := by
    rw [List.length_eq_countP_add_countP fun x => decide (x.2.retire = .queued), ← State.countP_slotsFrom,
      ← State.countP_slotsFrom]
    simp only [decide_eq_true_eq, ne_eq]
  have notOne : ¬(2 : Nat) = 1 := by decide
  simp only [historyClear, all, if_neg notOne, if_true, kept, total, Nat.add_sub_cancel_left]

/-- Settles O47: HISTORY_QUERY by its start slot and by how many slots are left; HISTORY_CLEAR by its selector, and for one
line by the line's entry. -/
theorem historyIsQueriedAndCleared : Obligations.HistoryIsQueriedAndCleared := by
  constructor
  · intro before c rest s head start occupied
    have row : exec .historyQuery before = .next ((historyQuery c.block (s.takeCommand rest)).send c) :=
      congrArg _ (head.serveIf rfl)
    refine ⟨fun beyond => Reply.refused_row row (if_pos beyond), fun within => ?_⟩
    refine ⟨nextSlotOf (occupied start) ((occupied start).take 8), ?_, nextSlotOf_of_all, fun x => nextSlotOf_of_more⟩
    rw [row, historyQuery, if_neg (not_lt.2 within)]
    rfl
  · intro before c rest s head sound l refused keeps number
    have row : exec .historyClear before = .next ((historyClear c.block (s.takeCommand rest)).send c) :=
      congrArg _ (head.serveIf rfl)
    refine ⟨fun notOne notAll => Reply.refused_row row ?_, fun one => ⟨fun absent => Reply.refused_row row ?_,
      fun i e he hl => ?_⟩, fun all => ?_⟩
    · simp only [historyClear, if_neg notOne, if_neg notAll]
    · exact historyClear_of_absent (s := s.takeCommand rest) one (State.historySlot_of_absent absent)
    · have found : s.historySlot l = some i := hl ▸ sound.historySlot he
      have cleared := historyClear_of_slot (s := s.takeCommand rest) one found he
      refine ⟨fun queued => Reply.refused_row row (cleared.trans (if_pos queued)), fun free => ?_⟩
      rw [row, cleared.trans (if_neg free), Reply.send_done, State.forgetHistory_eq (q := fun x => decide (x.line ≠ l))]
      · rfl
      · intro x
        simp [l]
    · rw [row, historyClear_of_all (s := s.takeCommand rest) all, Reply.send_done,
        State.forgetHistory_eq (q := fun x => decide (x.retire = .queued))]
      · rfl
      · intro x
        simp

end Sys2Proof.Machine
end

section
/-! SUPPORT. The rows of the spare commands (O48): the checks of SPARE_SET, the spare that SPARE_MARK condemns, and what
SPARE_QUERY reads. -/

namespace Sys2Proof.Machine

/-! ### SPARE_SET -/

theorem Origin.pool_eq_copy {o : Origin} : o.pool = .copy ↔ o = .copy := by
  cases o <;> simp [Origin.pool]

/-- R40: the copy pool has an entry exactly if some tracker entry is a COPY. -/
theorem State.occupancy_copy_ne_zero {s : State} :
    s.occupancy .copy ≠ 0 ↔ ∃ j e, s.entry j = some e ∧ e.origin = .copy := by
  simp [State.occupancy, Option.any_eq_true, Origin.pool_eq_copy]

/-- R131: a new spare area overlaps a region exactly if one of its lines can be the region's. -/
theorem State.overlapsRegion_of_lines {s : State} {base count : Nat} (h : 1 ≤ count) :
    s.overlapsRegion none base (base + count - 1) = true ↔
      ∃ j x, s.region j = some x ∧ x.base.toNat < base + count ∧ base ≤ x.limit.toNat := by
  have lastLine (n : Nat) : n ≤ base + count - 1 ↔ n < base + count := by omega
  simp [State.overlapsRegion_iff, lastLine]

/-- R131: the checks of SPARE_SET on a good count while the capacity is known, in order. -/
theorem spareSet_of_capacity {b : ArgBlock} {s : State} {n : Nat} (good : ¬(argNat b 16 2 = 0 ∨ 256 < argNat b 16 2))
    (hn : s.memory.capacity = some n) : spareSet b s =
      if n < (argLine b 12).toNat + argNat b 16 2 then refuse .badArgument s
      else if s.retirement.map ≠ [] ∨ s.retirement.queue ≠ [] ∨ s.occupancy .copy ≠ 0 then refuse .busy s
      else if s.overlapsRegion none (argLine b 12).toNat ((argLine b 12).toNat + argNat b 16 2 - 1) = true then
        refuse .overlap s
      else if s.management.frozen = true then refuse .frozen s
      else done (.spareArea (argLine b 12) (argNat b 16 2))
        { s with retirement :=
            { s.retirement with
              area := some { base := argLine b 12, spares := List.replicate (argNat b 16 2) .free }
              unavailable := false } } := by
  simp only [spareSet, if_neg good, hn]

/-! ### SPARE_MARK and SPARE_QUERY -/

/-- R133: what a spare that moves to another state leaves of a defined spare area. -/
theorem State.setSpare_of_area {s : State} {a : SpareArea} (h : s.retirement.area = some a) (i : Nat) (x : SpareState) :
    s.setSpare i x =
      { s with retirement := { s.retirement with area := some { a with spares := a.spares.set i x } } } := by
  simp only [State.setSpare, h]

/-- R134: the checks of SPARE_MARK on a spare of the area. -/
theorem spareMark_of_spare {b : ArgBlock} {s : State} {a : SpareArea} {x : SpareState} (ha : s.retirement.area = some a)
    (hx : a.spares[argNat b 4 2]? = some x) : spareMark b s =
      if x ≠ .free then refuse .state s else done .empty (s.setSpare (argNat b 4 2) .defective) := by
  simp only [spareMark, ha, hx]

theorem Retirement.counts_of_area {r : Retirement} {a : SpareArea} (h : r.area = some a) : r.counts =
    { free := a.spares.count .free, reserved := a.spares.count .reserved, inUse := a.spares.count .inUse
      defective := a.spares.count .defective } := by
  simp only [Retirement.counts, h]

theorem Retirement.counts_of_noArea {r : Retirement} (h : r.area = none) :
    r.counts = { free := 0, reserved := 0, inUse := 0, defective := 0 } := by
  simp only [Retirement.counts, h]

/-- Settles O48: SPARE_SET check after check, SPARE_MARK by the state of its spare, SPARE_QUERY by whether an area is
defined. -/
theorem sparesAreSetMarkedAndQueried : Obligations.SparesAreSetMarkedAndQueried := by
  refine ⟨?_, ?_, ?_⟩
  · intro before c rest s head base count refused
    have row : exec .spareSet before = .next ((spareSet c.block (s.takeCommand rest)).send c) :=
      congrArg _ (head.serveIf rfl)
    have refusedBy {why : RefusedReason}
        (h : spareSet c.block (s.takeCommand rest) = refuse why (s.takeCommand rest)) : refused why :=
      Reply.refused_row row h
    refine ⟨fun bad => refusedBy (if_pos bad), fun low high => ?_⟩
    have good : ¬(count = 0 ∨ 256 < count) := by omega
    refine ⟨fun unknown => refusedBy ?_, fun n hn => ?_⟩
    · have unknown : (s.takeCommand rest).memory.capacity = none := unknown
      simp only [spareSet, unknown]
      exact if_neg good
    intro busy overlap
    have busyIff : (s.retirement.map ≠ [] ∨ s.retirement.queue ≠ [] ∨ s.occupancy .copy ≠ 0) ↔ busy :=
      or_congr_right (or_congr_right State.occupancy_copy_ne_zero)
    have overlapIff : s.overlapsRegion none base.toNat (base.toNat + count - 1) = true ↔ overlap :=
      State.overlapsRegion_of_lines low
    have checks := spareSet_of_capacity (s := s.takeCommand rest) good hn
    refine ⟨fun beyond => refusedBy (checks.trans (if_pos beyond)), fun fits => ?_⟩
    have below := checks.trans (if_neg (not_lt.2 fits))
    have free (hb : ¬busy) := below.trans (if_neg (mt busyIff.1 hb))
    have apart (hb : ¬busy) (ho : ¬overlap) := (free hb).trans (if_neg (mt overlapIff.1 ho))
    refine ⟨fun hb => refusedBy (below.trans (if_pos (busyIff.2 hb))), fun hb ho => refusedBy ?_,
      fun hb ho frozen => refusedBy ?_, fun hb ho unfrozen => ?_⟩
    · exact (free hb).trans (if_pos (overlapIff.2 ho))
    · exact (apart hb ho).trans (if_pos frozen)
    · have notFrozen : ¬s.management.frozen = true := by simp [unfrozen]
      rw [row, (apart hb ho).trans (if_neg notFrozen)]
      rfl
  · intro before c rest s head i refused
    have row : exec .spareMark before = .next ((spareMark c.block (s.takeCommand rest)).send c) :=
      congrArg _ (head.serveIf rfl)
    refine ⟨fun noArea => Reply.refused_row row ?_, fun a ha => ⟨fun absent => Reply.refused_row row ?_, fun x hx => ?_⟩⟩
    · have noArea : (s.takeCommand rest).retirement.area = none := noArea
      simp only [spareMark, noArea]
    · have area : (s.takeCommand rest).retirement.area = some a := ha
      have noSpare : a.spares[argNat c.block 4 2]? = none := List.getElem?_eq_none absent
      simp only [spareMark, area, noSpare]
    · have checks := spareMark_of_spare (s := s.takeCommand rest) ha hx
      refine ⟨fun taken => Reply.refused_row row (checks.trans (if_pos taken)), fun free => ?_⟩
      rw [row, checks.trans (if_neg (not_not.2 free)), State.setSpare_of_area (s := s.takeCommand rest) ha]
      rfl
  · intro before c rest s head
    have row : exec .spareQuery before = .next ((spareQuery c.block (s.takeCommand rest)).send c) :=
      congrArg _ (head.serveIf rfl)
    refine ⟨fun noArea => ?_, fun a ha => ?_⟩
    · have noArea : (s.takeCommand rest).retirement.area = none := noArea
      simp only [row, spareQuery, Reply.send_done, Retirement.counts_of_noArea noArea, noArea, Option.map_none,
        Option.isSome_none, Bool.false_and]
    · have area : (s.takeCommand rest).retirement.area = some a := ha
      simp only [row, spareQuery, Reply.send_done, Retirement.counts_of_area area, area, Option.map_some,
        Option.isSome_some, Bool.true_and]
      rfl

end Sys2Proof.Machine
end

section
/-! SUPPORT. The rows of the retirement commands (O49, O50): RETIRE_LINE by the answer of its checks, the entry that
RETIRE_CANCEL takes out, the checks of RETIRE_LOAD, and the walk of RETIRE_QUERY. -/

namespace Sys2Proof.Machine

/-! ### RETIRE_LINE -/

/-- R140: the reason a RETIRE_LINE is refused for, by the check that fails. -/
def RetireAnswer.refusal : RetireAnswer → Option RefusedReason
  | .accepted _ => none
  | .noSpareArea => some .state
  | .beyondCapacity => some .badArgument
  | .inSpareArea => some .badArgument
  | .pending => some .busy
  | .queueFull => some .busy
  | .noneFree => some .noSpare
  | .unavailable => some .noSpare

theorem retireLine_of_refusal {requester tag : Byte} {b : ArgBlock} {s : State} {x : RetireAnswer} {why : RefusedReason}
    (check : s.retireCheck (argLine b 12) = x) (h : x.refusal = some why) :
    retireLine requester tag b s = refuse why s := by
  cases x <;> cases h <;> simp only [retireLine, check]

/-- R140: an accepted line takes its spare, and is queued with the manager tag. -/
theorem retireLine_of_accepted {requester tag : Byte} {b : ArgBlock} {s : State} {i : Nat}
    (check : s.retireCheck (argLine b 12) = .accepted i) : retireLine requester tag b s =
      started (.retirement (argLine b 12) i)
        (s.enqueueRetire (argLine b 12) (.manual { manager := requester, tag := tag }) i) := by
  simp only [retireLine, check]

/-- Settles O49: the checks of a retirement one after another, each with the reason the row gives it. -/
theorem retireLineReservesTheLowestFreeSpare : Obligations.RetireLineReservesTheLowestFreeSpare := by
  intro before c rest s head l refused
  have row : exec .retireLine before = .next ((retireLine c.requester c.tag c.block (s.takeCommand rest)).send c) :=
    congrArg _ (head.serveIf rfl)
  have refusedBy {x : RetireAnswer} {why : RefusedReason} (check : s.retireCheck l = x) (h : x.refusal = some why) :
      refused why := Reply.refused_row row (retireLine_of_refusal (s := s.takeCommand rest) check h)
  refine ⟨fun noArea => refusedBy (State.retireCheck_of_noArea noArea l) rfl, ?_⟩
  intro a ha beyond inArea pending
  have beyondIff : ¬s.belowCapacity l = true ↔ beyond := by simp [beyond, State.belowCapacity_iff]
  have areaIff : a.contains l = true ↔ inArea := SpareArea.contains_iff
  have pendingIff : (s.retirement.queued l = true ∨ s.retirement.copying l = true) ↔ pending := Retirement.pending_iff
  have checks := State.retireCheck_of_area ha l
  have below (hb : ¬beyond) := checks.trans (if_neg (mt beyondIff.1 hb))
  have outside (hb : ¬beyond) (hi : ¬inArea) := (below hb).trans (if_neg (mt areaIff.1 hi))
  have fresh (hb : ¬beyond) (hi : ¬inArea) (hp : ¬pending) := (outside hb hi).trans (if_neg (mt pendingIff.1 hp))
  refine ⟨fun bad => ?_, fun hb hi => ⟨fun busy => ?_, fun hp short => ?_⟩⟩
  · by_cases hb : beyond
    · exact refusedBy (checks.trans (if_pos (beyondIff.2 hb))) rfl
    · exact refusedBy ((below hb).trans (if_pos (areaIff.2 (bad.resolve_left hb)))) rfl
  · by_cases hp : pending
    · exact refusedBy ((outside hb hi).trans (if_pos (pendingIff.2 hp))) rfl
    · exact refusedBy ((fresh hb hi hp).trans (if_pos (busy.resolve_left hp))) rfl
  · have room := (fresh hb hi hp).trans (if_neg (not_le.2 short))
    refine ⟨fun noSpare => ?_, fun i available free first => ?_⟩
    · cases lowest : a.lowestFree with
      | none => exact refusedBy (room.trans (by rw [lowest, Option.elim_none])) rfl
      | some i =>
        have someFree : ¬.free ∉ a.spares := fun h => by simp [SpareArea.lowestFree_eq_none.2 h] at lowest
        rw [lowest, Option.elim_some] at room
        exact refusedBy (room.trans (if_pos (noSpare.resolve_left someFree))) rfl
    · rw [SpareArea.lowestFree_eq_some.2 ⟨free, first⟩, Option.elim_some] at room
      have accepted := room.trans (if_neg (by simp [available]))
      rw [row, retireLine_of_accepted (s := s.takeCommand rest) accepted, Reply.send_started,
        State.enqueueRetire_of_area (s := s.takeCommand rest) ha]
      rfl

/-! ### RETIRE_CANCEL -/

/-- R139: no line has two entries in the retire queue, so a queued line is found by its entry. -/
theorem Retirement.Sound.find?_queue {r : Retirement} (hr : r.Sound) {q : RetireEntry} (hq : q ∈ r.queue) :
    (r.queue.find? fun x => x.line = q.line) = some q := by
  obtain ⟨x, hx⟩ : ∃ x, (r.queue.find? fun x => x.line = q.line) = some x :=
    Option.isSome_iff_exists.1 (List.find?_isSome.2 ⟨q, hq, by simp⟩)
  have sameLine : x.line = q.line := by simpa using List.find?_some hx
  rw [hx, List.inj_on_of_nodup_map hr.nodup (List.mem_of_find?_eq_some hx) hq sameLine]

/-- R141: the line's entry is taken out of the queue. -/
theorem retireCancel_of_queued {b : ArgBlock} {s : State} {q : RetireEntry} (area : s.retirement.area ≠ none)
    (sound : s.retirement.Sound) (hq : q ∈ s.retirement.queue) (hl : q.line = argLine b 12) :
    retireCancel b s = done (.retirement (argLine b 12) q.spare) (s.cancelRetire q) := by
  have found := hl ▸ sound.find?_queue hq
  simp [retireCancel, area, found]

/-- R141: a line that is not queued is refused, by whether it is being copied. -/
theorem retireCancel_of_not_queued {b : ArgBlock} {s : State} (area : s.retirement.area ≠ none)
    (absent : ∀ q ∈ s.retirement.queue, q.line ≠ argLine b 12) : retireCancel b s =
      if ∃ j, s.retirement.copy = some j ∧ j.line = argLine b 12 then refuse .busy s else refuse .notFound s := by
  have notFound : (s.retirement.queue.find? fun q => q.line = argLine b 12) = none :=
    List.find?_eq_none.2 fun q hq => by simpa using absent q hq
  simp [retireCancel, area, notFound, Retirement.copying, Option.any_eq_true]

/-- R141: the spare table, the queue and the history table after a cancelled retirement; nothing else changes. -/
theorem State.cancelRetire_effect {s : State} {a : SpareArea} (ha : s.retirement.area = some a) (q : RetireEntry) :
    (s.cancelRetire q).retirement =
        { s.retirement with
          area := some { a with spares := a.spares.set q.spare .free }
          queue := s.retirement.queue.filter fun x => x.line ≠ q.line }
      ∧ (∀ j, (s.cancelRetire q).slot j = (s.slot j).map fun x =>
          if q.origin = .auto ∧ x.line = q.line ∧ x.retire = .queued then { x with retire := .none } else x)
      ∧ (s.cancelRetire q).port = s.port ∧ (s.cancelRetire q).regions = s.regions
      ∧ (s.cancelRetire q).tracker = s.tracker ∧ (s.cancelRetire q).memory = s.memory
      ∧ (s.cancelRetire q).patrol = s.patrol ∧ (s.cancelRetire q).events = s.events
      ∧ (s.cancelRetire q).management = s.management ∧ (s.cancelRetire q).pending = s.pending := by
  refine ⟨?_, fun j => ?_, ?_⟩
  · simp [State.cancelRetire, State.setSpare_retirement, ha]
  · rw [State.cancelRetire, State.slot_noticeEnded]
    simp [State.slot]
  · simp [State.cancelRetire]

/-! ### RETIRE_LOAD -/

/-- R142: whether the map, the retire queue or the copy holds a line. -/
theorem Retirement.holds_iff {r : Retirement} {l : LineNo} :
    ((r.entry l).isSome = true ∨ r.queued l = true ∨ r.copying l = true) ↔
      (∃ m ∈ r.map, m.line = l) ∨ (∃ q ∈ r.queue, q.line = l) ∨ ∃ j, r.copy = some j ∧ j.line = l := by
  have mapped : (r.entry l).isSome = true ↔ ∃ m ∈ r.map, m.line = l := by simp [Retirement.entry]
  exact or_congr mapped Retirement.pending_iff

/-- R142: the checks of RETIRE_LOAD where a spare area is defined, in order. -/
theorem retireLoad_of_area {b : ArgBlock} {s : State} {a : SpareArea} (ha : s.retirement.area = some a) :
    retireLoad b s =
      if a.spares.length ≤ argNat b 4 2 ∨ ¬s.belowCapacity (argLine b 12) = true ∨ a.contains (argLine b 12) = true then
        refuse .badArgument s
      else if (s.retirement.entry (argLine b 12)).isSome = true ∨ s.retirement.queued (argLine b 12) = true
          ∨ s.retirement.copying (argLine b 12) = true then refuse .busy s
      else if a.spares[argNat b 4 2]? ≠ some .free ∨ s.retirement.unavailable = true then refuse .state s
      else done .empty (s.loadRetired (argLine b 12) (argNat b 4 2)) := by
  simp only [retireLoad, ha, ite_or]

/-- R142: the spare is in use, and the map holds an ACTIVE entry of the line. -/
theorem State.loadRetired_of_area {s : State} {a : SpareArea} (ha : s.retirement.area = some a) (l : LineNo) (i : Nat) :
    s.loadRetired l i =
      { s with retirement :=
          { s.retirement with
            area := some { a with spares := a.spares.set i .inUse }
            map := insertMap
              { line := l, spare := i, state := .active, pending := none, auto := false, void := false
                time := some s.events.time } s.retirement.map } } := by
  have mapped : (s.setMap (insertMap
      { line := l, spare := i, state := .active, pending := none, auto := false, void := false, time := some s.now }
      s.retirement.map)).retirement.area = some a := ha
  exact State.setSpare_of_area mapped i .inUse

/-! ### RETIRE_QUERY -/

/-- R138: the entries of the map from a position on, with their positions. -/
def Retirement.mapFrom (r : Retirement) (start : Nat) : List (Nat × MapEntry) :=
  (r.map.zipIdx.map fun x => (x.2, x.1)).drop start

theorem Retirement.length_mapFrom (r : Retirement) (start : Nat) :
    (r.mapFrom start).length = r.map.length - start := by
  simp [Retirement.mapFrom]

theorem Retirement.mapFrom_entries (r : Retirement) (start : Nat) :
    (r.mapFrom start).map (·.2) = r.map.drop start := by
  simp [Retirement.mapFrom, List.map_drop, Function.comp_def]

theorem Retirement.mapFrom_position {r : Retirement} {start n : Nat} {x : Nat × MapEntry}
    (h : (r.mapFrom start)[n]? = some x) : x.1 = start + n := by
  simp only [Retirement.mapFrom, List.getElem?_drop, List.getElem?_map, List.getElem?_zipIdx, Option.map_map,
    Option.map_eq_some_iff] at h
  obtain ⟨m, -, rfl⟩ := h
  simp

/-- R138: RETIRE_QUERY where a spare area is defined: the check of its start, and the walk. -/
theorem retireQuery_of_area {b : ArgBlock} {s : State} (area : s.retirement.area ≠ none) :
    retireQuery b s =
      if 255 < argNat b 4 2 then refuse .badArgument s
      else done (.retireMap s.retirement.map.length
        (if s.retirement.map.length ≤ argNat b 4 2 + 8 then none else some (argNat b 4 2 + 8))
        ((s.retirement.mapFrom (argNat b 4 2)).take 8)) s := by
  have last : (s.retirement.mapFrom (argNat b 4 2)).length ≤ 8 ↔ s.retirement.map.length ≤ argNat b 4 2 + 8 := by
    rw [Retirement.length_mapFrom]
    omega
  have defined : ¬s.retirement.area.isNone = true := by simpa using area
  rw [← if_congr last rfl rfl]
  exact if_neg defined

/-- Settles O50: RETIRE_CANCEL by whether the line is queued; the checks of RETIRE_LOAD one after another; RETIRE_QUERY by
its start. -/
theorem retirementsAreCancelledLoadedAndQueried : Obligations.RetirementsAreCancelledLoadedAndQueried := by
  refine ⟨?_, ?_, ?_⟩
  · intro before c rest s head l refused
    have row : exec .retireCancel before = .next ((retireCancel c.block (s.takeCommand rest)).send c) :=
      congrArg _ (head.serveIf rfl)
    refine ⟨fun noArea => Reply.refused_row row ?_, fun a ha sound => ⟨fun q hq hl => ?_, fun absent => ?_⟩⟩
    · exact if_pos (Option.isNone_iff_eq_none.2 noArea)
    all_goals have area : (s.takeCommand rest).retirement.area ≠ none := by simp [State.takeCommand, ha]
    · refine ⟨(s.takeCommand rest).cancelRetire q, ?_, ?_⟩
      · rw [row, retireCancel_of_queued area sound hq hl]
        rfl
      · rw [← hl]
        exact State.cancelRetire_effect (s := s.takeCommand rest) ha q
    · have checks := retireCancel_of_not_queued area absent
      refine ⟨fun copying => Reply.refused_row row (checks.trans (if_pos copying)), fun idle => ?_⟩
      refine Reply.refused_row row (checks.trans (if_neg ?_))
      rintro ⟨j, hj, hl⟩
      exact idle j hj hl
  · intro before c rest s head i l refused
    have row : exec .retireLoad before = .next ((retireLoad c.block (s.takeCommand rest)).send c) :=
      congrArg _ (head.serveIf rfl)
    refine ⟨fun noArea => Reply.refused_row row ?_, fun a ha => ?_⟩
    · have noArea : (s.takeCommand rest).retirement.area = none := noArea
      simp only [retireLoad, noArea]
    intro bad busy
    have badIff : (a.spares.length ≤ i ∨ ¬s.belowCapacity l = true ∨ a.contains l = true) ↔ bad := by
      simp [bad, State.belowCapacity_iff, SpareArea.contains_iff]
    have busyIff : ((s.retirement.entry l).isSome = true ∨ s.retirement.queued l = true
        ∨ s.retirement.copying l = true) ↔ busy := Retirement.holds_iff
    have checks := retireLoad_of_area (b := c.block) (s := s.takeCommand rest) ha
    have good (hb : ¬bad) := checks.trans (if_neg (mt badIff.1 hb))
    have free (hb : ¬bad) (hy : ¬busy) := (good hb).trans (if_neg (mt busyIff.1 hy))
    refine ⟨fun hb => Reply.refused_row row (checks.trans (if_pos (badIff.2 hb))), fun hb hy => Reply.refused_row row ?_,
      fun hb hy unfit => Reply.refused_row row ((free hb hy).trans (if_pos unfit)), fun hb hy hi available => ?_⟩
    · exact (good hb).trans (if_pos (busyIff.2 hy))
    · have fit : ¬(a.spares[i]? ≠ some .free ∨ s.retirement.unavailable = true) := by simp [hi, available]
      rw [row, (free hb hy).trans (if_neg fit), State.loadRetired_of_area (s := s.takeCommand rest) ha]
      rfl
  · intro before c rest s head start refused
    have row : exec .retireQuery before = .next ((retireQuery c.block (s.takeCommand rest)).send c) :=
      congrArg _ (head.serveIf rfl)
    refine ⟨fun noArea => Reply.refused_row row ?_, fun area => ?_⟩
    · exact if_pos (Option.isNone_iff_eq_none.2 noArea)
    have checks := retireQuery_of_area (b := c.block) (s := s.takeCommand rest) area
    refine ⟨fun beyond => Reply.refused_row row (checks.trans (if_pos beyond)), fun within => ?_⟩
    refine ⟨(s.retirement.mapFrom start).take 8, ?_, ?_, fun n x hx => ?_⟩
    · rw [row, checks.trans (if_neg (not_lt.2 within))]
      rfl
    · rw [List.map_take, Retirement.mapFrom_entries]
    · rw [List.getElem?_take] at hx
      split at hx
      · exact Retirement.mapFrom_position hx
      · cases hx

end Sys2Proof.Machine
end

section
/-! SUPPORT. The event unit: a raised record, a delivery, and the law of R154 (O55). -/

namespace Sys2Proof.Machine

/-! ### A record is raised -/

theorem EventUnit.push_of_room {u : EventUnit} (h : u.queue.length < 32) (n : Notice) : u.push n =
    { u with queue := u.queue ++ [{ seq := u.nextSeq, time := u.time, notice := n }], nextSeq := u.nextSeq + 1 } :=
  if_pos h

theorem EventUnit.push_of_full {u : EventUnit} (h : 32 ≤ u.queue.length) (n : Notice) :
    u.push n = { u with lost := min (u.lost + 1) 65535 } :=
  if_neg (not_lt.2 h)

/-! ### A record is delivered -/

theorem EventUnit.deliver_of_noLost {u : EventUnit} (h : u.lost = 0) (rest : List EventRecord) :
    u.deliver rest = { u with queue := rest, credits := u.credits - 1 } :=
  if_neg (by simp [h])

/-- R157: where the delivered record leaves room, the lost count is reported in it and starts anew. -/
theorem EventUnit.deliver_of_lost {u : EventUnit} (h : 0 < u.lost) {rest : List EventRecord} (room : rest.length < 32) :
    u.deliver rest = EventUnit.push { kind := .eventsLost, count := some u.lost }
      { u with queue := rest, credits := u.credits - 1, lost := 0 } := by
  rw [EventUnit.push_of_room room, EventUnit.deliver, EventUnit.reportLost, if_pos h, EventUnit.push_of_room room]

/-- R156: what is delivered, and to whom. -/
theorem State.eventDelivery_of_head {s : State} {r : EventRecord} {rest : List EventRecord}
    (queue : s.events.queue = r :: rest) (credit : 0 < s.events.credits) (up : s.port.link = .up) :
    s.eventDelivery =
      { s with
        port :=
          { s.port with transmit :=
              s.port.transmit ++ [.mevent (BitVec.ofNat 8 s.management.manager.val) r] }
        events := s.events.deliver rest } := by
  simp [State.eventDelivery, State.deliverable, State.hand, queue, credit, up]

theorem State.eventDelivery_of_idle {s : State}
    (h : s.events.queue = [] ∨ s.events.credits = 0 ∨ s.port.link = .down) : s.eventDelivery = s := by
  have idle : ¬s.deliverable = true := by
    obtain h | h | h := h <;> simp [State.deliverable, h]
  exact if_neg idle

/-- Settles O35: the head record by whether a lost count follows it; and the three conditions. -/
theorem eventDeliveryHandsTheHeadRecordToTheManager : Obligations.EventDeliveryHandsTheHeadRecordToTheManager := by
  refine fun s => ⟨fun r rest queue credit up sound => ?_, fun h => congrArg _ (State.eventDelivery_of_idle h)⟩
  intro delivered
  have row : exec .eventDelivery s = delivered (s.events.deliver rest) :=
    congrArg _ (State.eventDelivery_of_head queue credit up)
  have room : rest.length < 32 := by simpa [queue] using sound.queue
  refine ⟨fun noLost => ?_, fun lost => ?_⟩
  · rw [row, EventUnit.deliver_of_noLost noLost]
  · rw [row, EventUnit.deliver_of_lost lost room, EventUnit.push_of_room room]

/-! ### The law -/

namespace EventUnit.Sound
variable {u : EventUnit} (hu : u.Sound)
include hu

theorem push (n : Notice) : (u.push n).Sound := by
  by_cases room : u.queue.length < 32
  · rw [EventUnit.push_of_room room]
    refine ⟨by simpa using room, hu.credits, hu.lost, fun lost => absurd (hu.full lost) room.ne, fun k r hk => ?_⟩
    dsimp only at hk ⊢
    rw [List.length_append, List.length_singleton]
    obtain old | rfl | beyond := lt_trichotomy k u.queue.length
    · rw [List.getElem?_append_left old] at hk
      rw [Nat.sub_add_comm old.le, BitVec.ofNat_add, ← BitVec.add_assoc, hu.seq k r hk]
      rfl
    · obtain rfl : _ = r := by simpa using hk
      simp
    · have : (u.queue ++ [{ seq := u.nextSeq, time := u.time, notice := n }])[k]? = none :=
        List.getElem?_eq_none (by simpa using beyond)
      simp [this] at hk
  · rw [EventUnit.push_of_full (not_lt.1 room)]
    exact ⟨hu.queue, hu.credits, Nat.min_le_right .., fun _ => le_antisymm hu.queue (not_lt.1 room), hu.seq⟩

theorem withCredits {n : Nat} (hn : n ≤ 32) : { u with credits := n }.Sound :=
  ⟨hu.queue, hn, hu.lost, hu.full, hu.seq⟩

/-- R156, R157: the queue without its head, the credit spent, and no loss to report. -/
theorem withoutHead {r : EventRecord} {rest : List EventRecord} (hq : u.queue = r :: rest) :
    { u with queue := rest, credits := u.credits - 1, lost := 0 }.Sound where
  queue := by have := hu.queue; simp [hq] at this; dsimp only; omega
  credits := (Nat.sub_le ..).trans hu.credits
  lost := Nat.zero_le _
  full h := absurd h (lt_irrefl 0)
  seq k x hk := by simpa [hq] using hu.seq (k + 1) x (by simpa [hq] using hk)

theorem deliver {r : EventRecord} {rest : List EventRecord} (hq : u.queue = r :: rest) : (u.deliver rest).Sound := by
  have taken := hu.withoutHead hq
  obtain noLost | lost := Nat.eq_zero_or_pos u.lost
  · rw [EventUnit.deliver_of_noLost noLost]
    rwa [← noLost] at taken
  · have room : rest.length < 32 := by simpa [hq] using hu.queue
    rw [EventUnit.deliver_of_lost lost room]
    exact taken.push _

theorem pushAll (ns : List Notice) : (u.pushAll ns).Sound := by
  induction ns generalizing u with
  | nil => exact hu
  | cons n ns ih => exact ih (hu.push n)

end EventUnit.Sound

end Sys2Proof.Machine
end

section
/-! SUPPORT. What the operations of the blocks do to the event unit: they raise records, and leave the rest of it to the
unit itself, to the requester link and to the management unit (R154, R155). -/

namespace Sys2Proof.Machine

/-- Records are raised, one after another, and nothing else happens to the event unit. -/
def State.Raises (s t : State) : Prop := ∃ ns : List Notice, t.events = s.events.pushAll ns

namespace State.Raises

theorem of_eq {s t : State} (h : t.events = s.events) : s.Raises t := ⟨[], h⟩

theorem refl (s : State) : s.Raises s := of_eq rfl

theorem trans {s t u : State} (h : s.Raises t) (k : t.Raises u) : s.Raises u := by
  obtain ⟨ns, ht⟩ := h
  obtain ⟨ms, hu⟩ := k
  exact ⟨ns ++ ms, by rw [hu, ht, EventUnit.pushAll_append]⟩

theorem raise {s t : State} (h : s.Raises t) (n : Notice) : s.Raises (t.raise n) := h.trans ⟨[n], rfl⟩

/-- An operation that leaves the event unit alone comes before. -/
theorem after_eq {s t u : State} (e : t.events = s.events) (h : t.Raises u) : s.Raises u := (of_eq e).trans h

theorem release {s t : State} (h : s.Raises t) (i : Fin 64) : s.Raises (t.release i) := h.trans (of_eq (by simp))

theorem refuseRequest {s t : State} (h : s.Raises t) (q : Request) (x : Status) : s.Raises (t.refuseRequest q x) :=
  h.trans (of_eq (by simp))

theorem handCredit {s t : State} (h : s.Raises t) : s.Raises t.handCredit := h.trans (of_eq (by simp))

/-- A fold of operations that raise records raises records. -/
theorem foldl {α : Type} {f : State → α → State} (h : ∀ (t : State) (x : α), t.Raises (f t x)) (l : List α)
    (s : State) : s.Raises (l.foldl f s) := by
  induction l generalizing s with
  | nil => exact refl s
  | cons x xs ih => exact (h s x).trans (ih _)

/-- R154: raised records leave the event unit in order. -/
theorem sound {s t : State} (h : s.Raises t) (hs : s.events.Sound) : t.events.Sound := by
  obtain ⟨ns, e⟩ := h
  exact e ▸ hs.pushAll ns

end State.Raises

/-- A record is raised after operations that leave the event unit alone. -/
theorem State.raises_raise {s t : State} (e : t.events = s.events) (n : Notice) : s.Raises (t.raise n) :=
  (State.Raises.of_eq e).raise n

/-! ### Fill, copy and spare area -/

theorem State.fillAdvance_raises (f : Fill) (s : State) : s.Raises (s.fillAdvance f) := by
  have goesOn : s.Raises (s.setFill (some f)) := .of_eq (by simp)
  unfold State.fillAdvance
  (repeat' split)
  · exact State.raises_raise (by simp) _
  · exact goesOn
  · exact State.raises_raise (by simp) _
  · exact goesOn
  · exact State.raises_raise (by simp) _
  · exact goesOn

theorem State.fillAcknowledged_raises (l : LineNo) (s : State) : s.Raises (s.fillAcknowledged l) := by
  unfold State.fillAcknowledged
  split
  · exact .refl s
  · exact State.fillAdvance_raises _ s

theorem State.fillWriteFailed_raises (l p : LineNo) (w : FillFailure) (s : State) :
    s.Raises (s.fillWriteFailed l p w) := by
  unfold State.fillWriteFailed
  split
  · exact .refl s
  · exact State.fillAdvance_raises _ s

theorem State.copySucceed_raises (g : Option (Fin 32)) (s : State) : s.Raises (s.copySucceed g) := by
  unfold State.copySucceed
  split
  · exact .refl s
  · exact State.raises_raise (by simp) _

theorem State.copyFail_raises (owner issued : Bool) (w : Reason) (g : Option (Fin 32)) (s : State) :
    s.Raises (s.copyFail owner issued w g) := by
  cases hj : s.retirement.copy with
  | none => simpa [State.copyFail, hj] using State.Raises.refl s
  | some job =>
    rw [State.copyFail_of_job hj]
    exact State.raises_raise (by simp) _

theorem State.copyLost_raises (s : State) : s.Raises s.copyLost := by
  unfold State.copyLost
  (repeat' split)
  · exact .refl s
  · exact State.copyFail_raises ..
  · exact State.copyFail_raises ..

theorem State.clipSpares_raises (n : Nat) (s : State) : s.Raises (s.clipSpares n) := by
  unfold State.clipSpares
  (repeat' split)
  · exact .refl s
  · exact (State.raises_raise (t := { s with retirement := _ }) rfl _).trans
      (.foldl (fun _ _ => State.raises_raise (by simp) _) _ _)
  · exact .of_eq rfl

/-! ### The error history table and the patrol unit -/

theorem State.autoAnswer_raises (i : Fin 128) (e : HistoryEntry) (a : RetireAnswer) (s : State) :
    s.Raises (s.autoAnswer i e a) := by
  cases a with
  | accepted spare => exact State.raises_raise (by simp) _
  | inSpareArea | pending => exact .refl s
  | noSpareArea | beyondCapacity | queueFull | noneFree | unavailable => exact State.raises_raise (by simp) _

theorem State.thresholdTest_raises (i : Fin 128) (s : State) : s.Raises (s.thresholdTest i) := by
  unfold State.thresholdTest
  (repeat' split)
  · exact .refl s
  · exact .refl s
  · exact State.autoAnswer_raises ..
  · exact .refl s

theorem State.reportWriteBack_raises (l : LineNo) (g : Fin 32) (p : Fin 72) (o : WriteBackOrigin) (s : State) :
    s.Raises (s.reportWriteBack l g p o) := by
  unfold State.reportWriteBack
  (repeat' split)
  · exact .refl s
  · exact .refl s
  · exact .after_eq (by simp) (State.thresholdTest_raises ..)
  · exact .refl s
  · rename_i i evicted _
    rw [State.raiseAll_setSlot]
    exact State.Raises.trans ⟨evicted, by simp⟩ (State.thresholdTest_raises i _)

theorem State.scanBurst_raises (i : Fin 32) (n : Nat) (s : State) : s.Raises (s.scanBurst i n) := by
  induction n generalizing s with
  | zero => exact .refl s
  | succ n ih =>
    unfold State.scanBurst
    split
    · dsimp only
      (repeat' split)
      · exact State.raises_raise (by simp) _
      · exact .of_eq (by simp)
      · exact .after_eq (by simp) (ih _)
    · exact .refl s

theorem State.slotExpiry_raises (s : State) : s.Raises s.slotExpiry := by
  unfold State.slotExpiry State.serveSlot
  (repeat' split)
  · exact .of_eq rfl
  · exact .after_eq rfl (State.scanBurst_raises ..)
  · exact .of_eq rfl
  · exact .refl s

theorem State.patrolWritten_raises (i : Fin 64) (e : Entry) (s : State) : s.Raises (s.patrolWritten i e) := by
  unfold State.patrolWritten
  refine State.Raises.release ?_ i
  split
  · refine State.Raises.trans ?_ (State.reportWriteBack_raises ..)
    split
    · exact State.raises_raise rfl _
    · exact .refl s
  · exact State.raises_raise rfl _
  · exact .refl s
  · exact .refl s
  · exact .refl s

/-! ### The tracker -/

theorem State.decideRequest_raises (q : Request) (i : Fin 64) (s : State) : s.Raises (s.decideRequest q i) := by
  have refused (x : Status) : s.Raises (s.refuseRequest q x) := (State.Raises.refl s).refuseRequest q x
  unfold State.decideRequest
  (repeat' split)
  · exact refused _
  · exact refused _
  · exact refused _
  · exact (State.raises_raise rfl _).refuseRequest q _
  · exact refused _
  · exact refused _
  · exact (State.raises_raise (by simp) _).refuseRequest q _
  · exact .of_eq (by simp)

theorem State.acceptance_raises (s : State) : s.Raises s.acceptance := by
  unfold State.acceptance
  split
  · exact (State.Raises.after_eq (by simp) (State.decideRequest_raises ..)).handCredit
  · exact .refl s

theorem State.raiseRead_raises (e : Entry) (f : Finding) (s : State) : s.Raises (s.raiseRead e f) := by
  unfold State.raiseRead
  (repeat' split)
  · exact .refl s
  · exact State.raises_raise rfl _
  · exact .refl s
  · exact State.raises_raise rfl _
  · exact State.raises_raise rfl _

theorem State.readTaken_raises (i : Fin 64) (e : Entry) (l : StoredLine) (s : State) :
    s.Raises (s.readTaken i e l) := by
  unfold State.readTaken
  split
  · split
    · exact .of_eq (by simp)
    · exact (State.Raises.after_eq (by simp) (State.raiseRead_raises ..)).release i
    · exact .of_eq (by simp)
    · exact .of_eq (by simp)
    · exact .refl s
  · exact .of_eq (by simp)
  · exact .of_eq (by simp)
  · exact .refl s
  · exact .of_eq (by simp)

theorem State.reportMerge_raises (e : Entry) (s : State) : s.Raises (s.reportMerge e) := by
  unfold State.reportMerge
  split
  · exact State.reportWriteBack_raises ..
  all_goals exact .refl s

theorem State.writeTaken_raises (i : Fin 64) (e : Entry) (s : State) : s.Raises (s.writeTaken i e) := by
  unfold State.writeTaken
  split
  · exact (State.Raises.after_eq (by simp) (State.reportMerge_raises ..)).release i
  · exact State.patrolWritten_raises ..
  · exact State.patrolWritten_raises ..
  · exact .after_eq (by simp) (State.fillAcknowledged_raises ..)
  · exact (State.copySucceed_raises _ s).release i

/-! ### The memory port -/

theorem State.originFails_raises (e : Entry) (w : FillFailure) (s : State) : s.Raises (s.originFails e w) := by
  unfold State.originFails
  split
  · exact .of_eq (by simp)
  · exact .refl s
  · exact .refl s
  · exact State.fillWriteFailed_raises ..
  · exact State.copyFail_raises ..

theorem State.completion_raises (op : MemoryOp) (tag status : Byte) {finish : Fin 64 → Entry → State → State}
    (hf : ∀ (i : Fin 64) (e : Entry) (t : State), t.Raises (finish i e t)) (s : State) :
    s.Raises (s.completion op tag status finish) := by
  unfold State.completion
  (repeat' split)
  · exact .refl s
  · exact State.raises_raise rfl _
  · exact State.raises_raise rfl _
  · exact State.raises_raise rfl _
  · exact (State.raises_raise rfl _).release _
  · exact .after_eq (by simp) (hf ..)
  · exact ((State.raises_raise (by simp) _).trans (State.originFails_raises ..)).release _

theorem State.timeoutExpiry_raises (i : Fin 64) (s : State) : s.Raises (s.timeoutExpiry i) := by
  unfold State.timeoutExpiry
  split
  · exact .refl s
  · exact (State.raises_raise (by simp) _).trans (State.originFails_raises ..)

theorem State.memoryUp_raises (n : Byte) (k : BitVec 64) (s : State) : s.Raises (s.memoryUp n k) := by
  unfold State.memoryUp
  refine State.Raises.trans ?_ (State.clipSpares_raises ..)
  exact (State.raises_raise (by simp) _).trans ⟨_, (State.clipRegions_effect k.toNat _).2⟩

theorem State.memoryHello_raises (n : Byte) (k : BitVec 64) (s : State) : s.Raises (s.memoryHello n k) := by
  unfold State.memoryHello
  (repeat' split)
  · exact State.raises_raise rfl _
  · exact State.memoryUp_raises n k s
  · exact State.raises_raise rfl _

theorem State.memoryLoss_raises (w : Reason) (s : State) : s.Raises (s.memoryLoss w) := by
  cases hl : s.memory.link with
  | down =>
    rw [State.memoryLoss_of_down hl]
    exact .refl s
  | up =>
    rw [State.memoryLoss_of_up hl]
    have fallen : s.Raises (s.linkFallen w) := State.raises_raise (t := { s with memory := _ }) rfl _
    have filled : (s.linkFallen w).Raises (s.linkFallen w).fillLost := ⟨_, State.fillLost_events _⟩
    exact ((fallen.trans filled).trans (State.copyLost_raises _)).trans (.of_eq (by simp))

theorem State.memoryBad_raises (k : Byte) (n : Nat) (s : State) : s.Raises (s.memoryBad k n) := by
  unfold State.memoryBad
  split
  · exact State.raises_raise rfl _
  · exact .refl s

end Sys2Proof.Machine
end

section
/-! SUPPORT. The event unit stays in order (O55): the fall of the requester link, the management commands, and every
other operation. -/

namespace Sys2Proof.Machine

/-! ### The commands -/

/-- R158: the checks of EVENT_GRANT. -/
theorem eventGrant_eq (b : ArgBlock) (s : State) : eventGrant b s =
    if argNat b 4 1 = 0 ∨ 32 < argNat b 4 1 then refuse .badArgument s
    else done (.credits (min (s.events.credits + argNat b 4 1) 32))
      { s with events := { s.events with credits := min (s.events.credits + argNat b 4 1) 32 } } := rfl

/-- A management command other than FILL_STOP, EVENT_GRANT and MANAGER_SET leaves the event unit alone. -/
theorem commandOf_events {k : Nat} {c : Command} {f : State → Reply} (h : commandOf k c = some f)
    (hk : k ≠ 8 ∧ k ≠ 19 ∧ k ≠ 20) (s : State) : (f s).state.events = s.events := by
  obtain ⟨notStop, notGrant, notManager⟩ := hk
  unfold commandOf at h
  split at h
  case h_8 => exact absurd rfl notStop
  case h_19 => exact absurd rfl notGrant
  case h_20 => exact absurd rfl notManager
  all_goals cases h
  all_goals
    simp only [regionDefine, regionModify, regionState, regionRemove, regionQuery, patrolSet, fillStart,
      historyQuery, historyClear, spareSet, spareMark, spareQuery, retireLine, retireCancel, retireLoad, retireQuery,
      timeoutSet, freeze, deviceQuery, refuse, done, started]
    (repeat' split)
    all_goals simp [State.boundsChanged, State.regionRemoved, State.startFill, State.setFill, State.cancelRetire,
      State.loadRetired]

/-- R158, R160, R168: a management command leaves the event unit in order: FILL_STOP may raise a record, EVENT_GRANT
adds credits up to 32, and MANAGER_SET takes them away. -/
theorem EventUnit.Sound.commandOf {s : State} (hs : s.events.Sound) {k : Nat} {c : Command} {f : State → Reply}
    (h : commandOf k c = some f) : (f s).state.events.Sound := by
  by_cases hk : k ≠ 8 ∧ k ≠ 19 ∧ k ≠ 20
  · rwa [commandOf_events h hk]
  have special : k = 8 ∨ k = 19 ∨ k = 20 := by omega
  obtain rfl | rfl | rfl := special <;> cases h
  · obtain e | ⟨f, -, -, e⟩ := fillStop_cases c.block s
    · rwa [e]
    · exact e ▸ (State.fillAdvance_raises _ s).sound hs
  · rw [eventGrant_eq]
    split
    · exact hs
    · exact hs.withCredits (Nat.min_le_right ..)
  · obtain e | ⟨m, -, e⟩ := managerSet_cases c.block s
    · rwa [e]
    · exact e ▸ (hs.withCredits (Nat.zero_le 32)).push _

theorem EventUnit.Sound.serveCommand {s : State} (hs : s.events.Sound) : s.serveCommand.events.Sound := by
  unfold State.serveCommand
  split
  · rename_i c rest _
    have processed : ((s.takeCommand rest).process c).state.events.Sound := by
      unfold State.process
      (repeat' split)
      · exact EventUnit.Sound.commandOf (s := s.takeCommand rest) hs ‹_›
      · exact hs
      · exact hs.push _
    simpa [Reply.send] using processed
  · exact hs

/-! ### The requester link -/

namespace EventUnit.Sound
variable {s : State} (hs : s.events.Sound)
include hs

/-- R159: a requester-link reset takes the credits away and is itself reported. -/
theorem requesterFall (w : Reason) : (s.requesterFall w).events.Sound := by
  unfold State.requesterFall
  split
  · exact hs
  · simpa using (hs.withCredits (Nat.zero_le 32)).push _

theorem violation (w : Reason) : (s.violation w).events.Sound := by
  unfold State.violation
  split
  · exact hs
  · exact requesterFall (s := s.raise _) (hs.push _) _

theorem requestArrives (q : Request) : (s.requestArrives q).events.Sound := by
  unfold State.requestArrives
  (repeat' split)
  · exact hs
  · exact hs
  · exact hs.violation _

theorem commandArrives (c : Command) : (s.commandArrives c).events.Sound := by
  unfold State.commandArrives
  (repeat' split)
  · exact hs
  · exact hs
  · exact hs.violation _

theorem requesterBad (k : Byte) (n : Nat) : (s.requesterBad k n).events.Sound := by
  unfold State.requesterBad
  (repeat' split)
  · simpa using hs
  · exact hs
  · exact hs
  all_goals exact hs.violation _

theorem eventDelivery : s.eventDelivery.events.Sound := by
  unfold State.eventDelivery
  (repeat' split)
  · rename_i hq
    simpa using hs.deliver hq
  · exact hs
  · exact hs

end EventUnit.Sound

theorem operationsKeep_eventsSound : OperationsKeep fun s => s.events.Sound where
  closeEvent _ hs := hs
  pending _ _ hs := hs
  reset _ _ := reset_unitsSound.1
  ownershipPass _ hs := by simpa using hs
  repairService _ hs := by simpa using hs
  fillIssue _ hs := by simpa using hs
  copyStart _ hs := by simpa using hs
  acceptance s hs := s.acceptance_raises.sound hs
  serveCommand _ hs := hs.serveCommand
  issueGrant _ hs := by simpa using hs
  eventDelivery _ hs := hs.eventDelivery
  requesterHello _ hs := by simpa using hs
  requesterFall w _ hs := hs.requesterFall w
  requestArrives q _ hs := hs.requestArrives q
  commandArrives c _ hs := hs.commandArrives c
  requesterBad k n _ hs := hs.requesterBad k n
  transmitPacket _ hs := by simpa using hs
  memoryHello n k s hs := (s.memoryHello_raises n k).sound hs
  memoryLoss w s hs := (s.memoryLoss_raises w).sound hs
  helloExpiry _ hs := by simpa using hs
  memoryBad k n s hs := (s.memoryBad_raises k n).sound hs
  sdata tag status l s hs :=
    (State.completion_raises _ tag status (fun i e t => t.readTaken_raises i e l) s).sound hs
  sdone tag status s hs :=
    (State.completion_raises _ tag status (fun i e t => t.writeTaken_raises i e) s).sound hs
  timeoutExpiry i s hs := (s.timeoutExpiry_raises i).sound hs
  slotExpiry s hs := s.slotExpiry_raises.sound hs
  tick _ hs := ⟨hs.queue, hs.credits, hs.lost, hs.full, hs.seq⟩

/-- Settles O55: what a raise does, by whether the queue has room; each operation keeps the law, so every step does. -/
theorem eventUnitStaysInOrder : Obligations.EventUnitStaysInOrder := by
  refine ⟨fun n u => ⟨fun room => EventUnit.push_of_room room n, fun full => ?_⟩,
    operationsKeep_eventsSound.keptByStep⟩
  have saturates : min (u.lost + 1) 65535 = if u.lost < 65535 then u.lost + 1 else 65535 := by
    split <;> omega
  rw [EventUnit.push_of_full full, saturates]

end Sys2Proof.Machine
end

section
/-! SUPPORT. A fatal violation on the requester link (O7), and the commands about events, the manager and the device
(O52, O53). -/

namespace Sys2Proof.Machine

/-! ### Fatal violations -/

/-- A record raised before a fall changes nothing of the fall but the record. -/
theorem RequesterFell.of_raise {t u : State} {n : Notice} {before : EventUnit} {why : Reason}
    (h : RequesterFell (t.raise n) u before why) : RequesterFell t u before why := by
  obtain ⟨port, ⟨v, ⟨entries, order, memory, tables⟩, served⟩, events, others⟩ := h
  exact ⟨port, ⟨v, ⟨entries, order, memory, tables⟩, served⟩, events, others⟩

/-- R178: a fatal violation while the link is UP raises PROTOCOL_ERROR, then the link falls. -/
theorem State.violation_fell {t : State} (up : t.port.link = .up) (why : Reason) : RequesterFell t (t.violation why)
    (t.events.push { kind := .protocolError, reason := some why }) .protocolViolation := by
  have violated : t.violation why
      = (t.raise { kind := .protocolError, reason := some why }).requesterFall .protocolViolation := by
    simp only [State.violation, up]
  rw [violated]
  exact .of_raise (State.requesterFell (t := t.raise _) up _)

/-- R178: a badly framed packet is a fatal violation, its kind judged before its length. -/
theorem State.requesterBad_of_up {t : State} (up : t.port.link = .up) {kind : Byte} {n : Nat}
    (bad : requesterLength kind ≠ some n) : t.requesterBad kind n =
      t.violation (if (requesterLength kind).isNone then .requesterUnknownKind else .requesterBadLength) := by
  simp only [State.requesterBad, up, if_neg bad]

/-- R177: a request without a credit finds the packets that wait unserved, and is a fatal violation. -/
theorem State.requestArrives_of_noCredit {s : State} (up : s.settleArrival.port.link = .up)
    (full : 40 ≤ s.port.requests.length + s.port.requestOwed) (q : Request) :
    s.requestFinds.requestArrives q = s.settleArrival.violation .requesterNoRequestCredit := by
  obtain ⟨-, -, -, -, requests, -, owed, -⟩ := s.settleArrival_keepsTables
  have finds : s.requestFinds = s.settleArrival := if_neg fun h => by omega
  have full : ¬s.settleArrival.port.requests.length + s.settleArrival.port.requestOwed < 40 := by
    rw [requests, owed]
    omega
  simp only [finds, State.requestArrives, up, if_neg full]

/-- R177: so does a management command. -/
theorem State.commandArrives_of_noCredit {s : State} (up : s.settleArrival.port.link = .up)
    (full : 8 ≤ s.port.commands.length + s.port.managementOwed) (c : Command) :
    s.commandFinds.commandArrives c = s.settleArrival.violation .requesterNoManagementCredit := by
  obtain ⟨-, -, -, commands, -, -, -, owed⟩ := s.settleArrival_keepsTables
  have finds : s.commandFinds = s.settleArrival := if_neg fun h => by omega
  have full : ¬s.settleArrival.port.commands.length + s.settleArrival.port.managementOwed < 8 := by
    rw [commands, owed]
    omega
  simp only [finds, State.commandArrives, up, if_neg full]

/-- Settles O7: each row is a violation with its reason, by which the link falls. -/
theorem fatalViolationsTakeTheRequesterLinkDown : Obligations.FatalViolationsTakeTheRequesterLinkDown := by
  intro s up fell
  have violates {i : Instr} {u : State} {why : Reason} (row : exec i s = .next u)
      (h : u = s.settleArrival.violation why) : fell i why := ⟨_, h ▸ row, State.violation_fell up why⟩
  refine ⟨fun kind n => ⟨fun unknown => violates rfl ?_, fun m known wrong => violates rfl ?_⟩, fun full r t l => ?_,
    fun full r t b => violates rfl (State.commandArrives_of_noCredit up full _)⟩
  · rw [State.requesterBad_of_up up (by simp [unknown]), unknown]
    rfl
  · rw [State.requesterBad_of_up up (by simpa [known] using wrong), known]
    rfl
  · have request (q : Request) := State.requestArrives_of_noCredit up full q
    exact ⟨violates rfl (request _), fun d => violates rfl (request _), fun m d => violates rfl (request _)⟩

/-! ### The commands of the event unit and the management unit -/

/-- Settles O52: the check of the command, and the credits it adds. -/
theorem eventGrantAddsCredits : Obligations.EventGrantAddsCredits := by
  intro before c rest s head n
  have row : exec .eventGrant before = .next ((eventGrant c.block (s.takeCommand rest)).send c) :=
    congrArg _ (head.serveIf rfl)
  have checks := eventGrant_eq c.block (s.takeCommand rest)
  refine ⟨fun bad => Reply.refused_row row (checks.trans (if_pos bad)), fun low high => ?_⟩
  have good : ¬(n = 0 ∨ 32 < n) := by omega
  rw [row, checks.trans (if_neg good)]
  rfl

/-- R168: no requester has a number above 15. -/
theorem managerSet_of_beyond {b : ArgBlock} (h : 15 < argNat b 4 1) (s : State) :
    managerSet b s = refuse .badArgument s := dif_neg (by omega)

/-- R168: a number of a requester names the new manager, unless the bridge is frozen. -/
theorem managerSet_of_number {b : ArgBlock} {m : Fin 16} (h : argNat b 4 1 = m.val) (s : State) : managerSet b s =
    if s.management.frozen then refuse .frozen s else done (.manager m) (s.changeManager m) := by
  have number : argNat b 4 1 < 16 := h ▸ m.isLt
  obtain rfl : ⟨argNat b 4 1, number⟩ = m := Fin.ext h
  exact dif_pos number

/-- Settles O53: MANAGER_SET by its checks; FREEZE; DEVICE_QUERY. -/
theorem managerFreezeAndDeviceCommands : Obligations.ManagerFreezeAndDeviceCommands := by
  refine ⟨fun before c rest => ?_, fun before c rest => ?_, fun before c rest => ?_⟩
  · intro s head n
    have row : exec .managerSet before = .next ((managerSet c.block (s.takeCommand rest)).send c) :=
      congrArg _ (head.serveIf rfl)
    have named (m : Fin 16) (hm : n = m.val) := managerSet_of_number hm (s.takeCommand rest)
    refine ⟨fun beyond => Reply.refused_row row (managerSet_of_beyond beyond _), fun low frozen => ?_,
      fun m hm free => ⟨0, ?_⟩⟩
    · exact Reply.refused_row row ((named ⟨n, by omega⟩ rfl).trans (if_pos frozen))
    · have notFrozen : ¬(s.takeCommand rest).management.frozen = true := by simp [free]
      rw [row, (named m hm).trans (if_neg notFrozen)]
      rfl
  · intro s head
    exact congrArg Host.Outcome.next (head.serveIf rfl)
  · intro s head
    exact congrArg Host.Outcome.next (head.serveIf rfl)

end Sys2Proof.Machine
end

section
/-! SUPPORT. The two checks that every management command meets before its own (O40): its sender, then its code; and the
rows of the table whose command is not at the head. -/

namespace Sys2Proof.Machine

/-! ### The row of a code -/

/-- A row whose condition the code at the head meets takes the command from the queue, processes it and replies. -/
theorem State.serveIf_of_meets {s : State} {c : Command} {rest : List Command} (head : s.port.commands = c :: rest)
    {p : Nat → Bool} (meets : p (argCode c.block) = true) :
    s.serveIf p = ((s.takeCommand rest).process c).send c := by
  simp only [State.serveIf, State.serveCommand, head, if_pos meets]

/-- A row whose condition the code at the head fails has no effect (log entry 2). -/
theorem State.serveIf_of_fails {s : State} {c : Command} {rest : List Command} (head : s.port.commands = c :: rest)
    {p : Nat → Bool} (fails : ¬p (argCode c.block) = true) : s.serveIf p = s := by
  simp only [State.serveIf, head, if_neg fails]

/-! ### The two checks -/

/-- R183: code 0 and the codes above 22 name no command. -/
theorem commandOf_unknown {code : Nat} (unknown : code = 0 ∨ 22 < code) (c : Command) : commandOf code c = none := by
  obtain rfl | above := unknown
  · rfl
  · obtain ⟨k, rfl⟩ := Nat.exists_eq_add_of_le' (show 23 ≤ code from above)
    rfl

/-- R165: the sender is checked first, whatever the code. -/
theorem State.process_of_notManager {s : State} {c : Command}
    (sender : c.requester.toNat ≠ s.management.manager.val) : s.process c = refuse .notManager
      (s.raise { kind := .managementRefused, requester := some (c.requester, c.tag), reason := some .notManager }) := by
  simp [State.process, State.fromManager, sender]

/-- R165: the code of a command from the manager is checked next. -/
theorem State.process_of_unknown {s : State} {c : Command} (sender : c.requester.toNat = s.management.manager.val)
    (unknown : argCode c.block = 0 ∨ 22 < argCode c.block) : s.process c = refuse .unknownCommand s := by
  simp [State.process, State.fromManager, sender, commandOf_unknown unknown]

/-- Settles O40: each row serves the head or has no effect, by the code at the head; a command that is served meets the
check of its sender, then that of its code. -/
theorem commandsAreCheckedForSenderAndCode : Obligations.CommandsAreCheckedForSenderAndCode := by
  unfold Obligations.CommandsAreCheckedForSenderAndCode
  intro rows before c rest s head notManager unknown
  have knownRow : ∀ row ∈ rows, exec row.1 before = .next (s.serveIf (· == row.2)) := by
    simp only [rows, List.forall_mem_cons, List.not_mem_nil, false_imp_iff, implies_true, and_true]
    and_intros <;> rfl
  have unknownRow : exec .unknownCommand before = .next (s.serveIf fun k => k == 0 || 22 < k) := rfl
  have meetsUnknown : ((argCode c.block == 0 || 22 < argCode c.block) = true) ↔ unknown := by simp [unknown]
  have refusedSender (sender : c.requester.toNat ≠ s.management.manager.val) {p : Nat → Bool}
      (meets : p (argCode c.block) = true) : .next (s.serveIf p) = notManager := by
    rw [State.serveIf_of_meets head meets, State.process_of_notManager (s := s.takeCommand rest) sender]
    rfl
  refine ⟨fun sender => ⟨fun row mem code => ?_, fun hu => ?_⟩, fun sender hu => ?_, fun row mem code => ?_,
    fun known => ?_⟩
  · exact (knownRow row mem).trans (refusedSender sender (by simpa using code))
  · exact unknownRow.trans (refusedSender sender (meetsUnknown.2 hu))
  · exact Reply.refused_row (unknownRow.trans (congrArg _ (State.serveIf_of_meets head (meetsUnknown.2 hu))))
      (State.process_of_unknown (s := s.takeCommand rest) sender hu)
  · rw [knownRow row mem, State.serveIf_of_fails head (by simpa using code)]
  · rw [unknownRow, State.serveIf_of_fails head (mt meetsUnknown.1 known)]

end Sys2Proof.Machine
end

section
/-! SUPPORT. The requester port at work: the partner's HELLO (O4), arrivals with a credit (O5), and the sending of the
front of the transmit order (O8). -/

namespace Sys2Proof.Machine

/-! ### The link comes up -/

/-- R180: a packet handed while the link is UP goes to the end of the transmit order. -/
theorem State.hand_of_up {s : State} (up : s.port.link = .up) (x : OutPacket) :
    s.hand x = { s with port := { s.port with transmit := s.port.transmit ++ [x] } } := if_pos up

/-- R175: a HELLO brings a link that is DOWN up, and is then answered. -/
theorem State.requesterHello_of_down {s : State} (down : s.port.link = .down) : s.requesterHello =
    { s with port := { s.port with link := .up, transmit := s.port.transmit ++ [.hello] } } := by
  simp only [State.requesterHello, down]
  exact State.hand_of_up rfl _

/-- R175: a HELLO on a link that is UP is discarded. -/
theorem State.requesterHello_of_up {s : State} (up : s.port.link = .up) : s.requesterHello = s := by
  simp only [State.requesterHello, up]

/-- Settles O4: the row takes the HELLO in the state that an arrival finds, whose link is DOWN or UP. -/
theorem requesterHelloBringsTheLinkUp : Obligations.RequesterHelloBringsTheLinkUp := fun _ =>
  ⟨fun down => congrArg _ (State.requesterHello_of_down down),
    fun up => congrArg _ (State.requesterHello_of_up up)⟩

/-! ### Arrivals with a credit -/

/-- R176, R177: a request with a credit finds the bridge settled, and joins the request queue. -/
theorem State.requestArrives_of_credit {s : State} (up : s.port.link = .up)
    (credit : s.port.requests.length + s.port.requestOwed < 40) (q : Request) :
    s.requestFinds.requestArrives q =
      { s.settle with port := { s.settle.port with requests := s.settle.port.requests ++ [q] } } := by
  obtain ⟨finds, settledUp, settledCredit⟩ := s.requestFinds_of_credit up credit
  simp only [finds, State.requestArrives, settledUp, if_pos settledCredit]

/-- R176, R177: so does a management command, in the queue of its own class. -/
theorem State.commandArrives_of_credit {s : State} (up : s.port.link = .up)
    (credit : s.port.commands.length + s.port.managementOwed < 8) (c : Command) :
    s.commandFinds.commandArrives c =
      { s.settle with port := { s.settle.port with commands := s.settle.port.commands ++ [c] } } := by
  obtain ⟨finds, settledUp, settledCredit⟩ := s.commandFinds_of_credit up credit
  simp only [finds, State.commandArrives, settledUp, if_pos settledCredit]

/-- Settles O5: the rows of the three requests differ in the body alone; MCMD has a queue and a credit of its own. -/
theorem packetsWithACreditJoinTheirQueue : Obligations.PacketsWithACreditJoinTheirQueue := by
  refine fun s up => ⟨fun credit r t l => ?_, fun credit r t b => ?_⟩
  · have joins (q : Request) := State.requestArrives_of_credit up credit q
    exact ⟨congrArg _ (joins _), fun d => congrArg _ (joins _), fun m d => congrArg _ (joins _)⟩
  · exact congrArg _ (State.commandArrives_of_credit up credit _)

/-! ### Sending -/

/-- R180: the HELLO at the front is sent with the grant. -/
theorem RequesterPort.sendFront_of_hello {p : RequesterPort} {rest : List OutPacket}
    (front : p.transmit = .hello :: rest) : p.sendFront =
      { p with transmit := rest,
               sent := p.sent ++ [{ packet := .hello, requestCredits := 40, managementCredits := 8 }] } := by
  simp only [RequesterPort.sendFront, front]

/-- R180: any other packet at the front is sent with the credits owed. -/
theorem RequesterPort.sendFront_of_ne_hello {p : RequesterPort} {x : OutPacket} {rest : List OutPacket}
    (front : p.transmit = x :: rest) (other : x ≠ .hello) : p.sendFront =
      { p with transmit := rest, requestOwed := 0, managementOwed := 0,
               sent := p.sent ++
                 [{ packet := x, requestCredits := p.requestOwed, managementCredits := p.managementOwed }] } := by
  unfold RequesterPort.sendFront
  split
  case h_1 empty => simp [front] at empty
  case h_2 hello => exact absurd (List.cons.inj (front.symm.trans hello)).1 other
  case h_3 front' =>
    obtain ⟨rfl, rfl⟩ := List.cons.inj (front.symm.trans front')
    rfl

/-- R180: a port that owes no credit hands itself no CREDIT packet. -/
theorem State.handCredit_of_nothingOwed {s : State} (request : s.port.requestOwed = 0)
    (management : s.port.managementOwed = 0) : s.handCredit = s := if_neg (by simp [request, management])

/-- R180: the front of the transmit order is sent over a link that is UP. -/
theorem State.transmitPacket_of_up {s : State} {x : OutPacket} {rest : List OutPacket} (up : s.port.link = .up)
    (front : s.port.transmit = x :: rest) :
    s.transmitPacket = State.handCredit { s with port := s.port.sendFront } := if_neg (by simp [up, front])

/-- Settles O8: the HELLO leaves the owed counts, so a CREDIT may follow it; any other packet clears them. -/
theorem transmitSendsTheFrontWithItsCredits : Obligations.TransmitSendsTheFrontWithItsCredits := by
  intro s
  have row : exec .transmitPacket s = .next s.settle.transmitPacket := rfl
  refine ⟨fun x rest up front other => ?_, fun rest up front => ?_, fun silent => ?_⟩
  · rw [row, State.transmitPacket_of_up up front, RequesterPort.sendFront_of_ne_hello front other]
    exact congrArg _ (State.handCredit_of_nothingOwed rfl rfl)
  · rw [row, State.transmitPacket_of_up up front, RequesterPort.sendFront_of_hello front]
  · exact row.trans (congrArg _ (if_pos silent))

end Sys2Proof.Machine
end

section
/-! SUPPORT. The bridge with a command waiting (O1); with none it is `step_of_idle`. -/

namespace Sys2Proof.Machine

/-- Settles O1: a queue with a command in front selects the branch of `step` that executes it, on the rest of the
queue. -/
theorem stepTakesTheFrontCommand : Obligations.StepTakesTheFrontCommand := by
  intro c rest s front
  simp only [step, front]

end Sys2Proof.Machine
end

section
/-! SUPPORT. The law of the retirement unit (O58), part by part, over lists: which spares are IN_USE and which RESERVED,
the order of the retirement map, and the entry of one line in it. Every operation of the unit moves one spare at a time
and writes one map entry at a time. -/

namespace Sys2Proof.Machine

/-! ### The roles of the spares -/

/-- Spare `i` is one on which an entry of a map keeps its line (R133). -/
def KeptOn (map : List MapEntry) (i : Nat) : Prop := ∃ m ∈ map, m.keepsSpare = true ∧ m.spare = i

theorem keptOn_cons {m : MapEntry} {map : List MapEntry} {i : Nat} :
    KeptOn (m :: map) i ↔ (m.keepsSpare = true ∧ m.spare = i) ∨ KeptOn map i := by
  simp [KeptOn]

/-- R133: the IN_USE spares are those on which map entries keep their lines, the RESERVED ones those promised, and no two
map entries share a spare, nor do two promises. -/
structure SparesSound (spares : List SpareState) (map : List MapEntry) (promised : List Nat) : Prop where
  inUse : ∀ i, spares[i]? = some .inUse ↔ KeptOn map i
  reserved : ∀ i, spares[i]? = some .reserved ↔ i ∈ promised
  mapSpares : (map.map (·.spare)).Nodup
  promised : promised.Nodup

namespace SparesSound
variable {spares : List SpareState} {map map' : List MapEntry} {promised promised' : List Nat} {i : Nat} {m m' : MapEntry}

/-- Neither the order of the map nor that of the promises matters. -/
theorem perm (h : SparesSound spares map promised) (hm : map.Perm map') (hp : promised.Perm promised') :
    SparesSound spares map' promised' where
  inUse j := (h.inUse j).trans (exists_congr fun x => by rw [hm.mem_iff])
  reserved j := (h.reserved j).trans hp.mem_iff
  mapSpares := (hm.map _).nodup_iff.1 h.mapSpares
  promised := hp.nodup_iff.1 h.promised

/-- A spare of the area moves to another state: of the roles only its own changes. -/
theorem set (h : SparesSound spares map promised) {y : SpareState} (hi : spares[i]? = some y) (x : SpareState)
    (keeps : ∀ j, KeptOn map' j ↔ if i = j then x = .inUse else KeptOn map j)
    (promises : ∀ j, j ∈ promised' ↔ if i = j then x = .reserved else j ∈ promised)
    (mapSpares : (map'.map (·.spare)).Nodup) (nodup : promised'.Nodup) :
    SparesSound (spares.set i x) map' promised' := by
  have inRange : i < spares.length := (List.getElem?_eq_some_iff.1 hi).1
  have read (j : Nat) : (spares.set i x)[j]? = if i = j then some x else spares[j]? := by
    rw [List.getElem?_set, if_pos inRange]
  refine ⟨fun j => ?_, fun j => ?_, mapSpares, nodup⟩
  · rw [read, keeps]
    split
    · simp
    · exact h.inUse j
  · rw [read, promises]
    split
    · simp
    · exact h.reserved j

theorem notKept (h : SparesSound spares map promised) {x : SpareState} (hi : spares[i]? = some x) (hx : x ≠ .inUse) :
    ¬KeptOn map i := fun hk => hx (Option.some.inj (hi.symm.trans ((h.inUse i).2 hk)))

theorem notPromised (h : SparesSound spares map promised) {x : SpareState} (hi : spares[i]? = some x)
    (hx : x ≠ .reserved) : i ∉ promised := fun hp => hx (Option.some.inj (hi.symm.trans ((h.reserved i).2 hp)))

/-- R140: a FREE spare is promised. -/
theorem reserve (h : SparesSound spares map promised) (free : spares[i]? = some .free) :
    SparesSound (spares.set i .reserved) map (i :: promised) := by
  refine h.set free _ (fun j => ?_) (fun j => ?_) h.mapSpares
    (List.nodup_cons.2 ⟨h.notPromised free (by simp), h.promised⟩)
  · split
    · rename_i hij
      simpa [← hij] using h.notKept free (by simp)
    · rfl
  · split
    · simp [‹i = j›]
    · simp [Ne.symm ‹¬i = j›]

/-- R141, R147: a promise ends, and its spare is FREE again or condemned. -/
theorem unpromise (h : SparesSound spares map (i :: promised)) {x : SpareState} (hx : x ≠ .inUse ∧ x ≠ .reserved) :
    SparesSound (spares.set i x) map promised := by
  have reserved : spares[i]? = some .reserved := (h.reserved i).2 (by simp)
  obtain ⟨absent, nodup⟩ := List.nodup_cons.1 h.promised
  refine h.set reserved _ (fun j => ?_) (fun j => ?_) h.mapSpares nodup
  · split
    · rename_i hij
      simpa [← hij, hx.1] using h.notKept reserved (by simp)
    · rfl
  · split
    · simpa [← ‹i = j›, hx.2] using absent
    · simp [Ne.symm ‹¬i = j›]

/-- R142, R146: a promise is kept: a new map entry keeps its line on the promised spare. -/
theorem occupy (h : SparesSound spares map (i :: promised)) (hm : m.keepsSpare = true) (hi : m.spare = i)
    (fresh : ∀ x ∈ map, x.spare ≠ i) : SparesSound (spares.set i .inUse) (m :: map) promised := by
  have reserved : spares[i]? = some .reserved := (h.reserved i).2 (by simp)
  obtain ⟨absent, nodup⟩ := List.nodup_cons.1 h.promised
  refine h.set reserved _ (fun j => ?_) (fun j => ?_) ?_ nodup
  · rw [keptOn_cons, hi]
    split
    · simp [hm, ‹i = j›]
    · simp [‹¬i = j›]
  · split
    · simpa [← ‹i = j›] using absent
    · simp [Ne.symm ‹¬i = j›]
  · exact List.nodup_cons.2 ⟨by simpa [hi] using fresh, h.mapSpares⟩

/-- R146: a map entry gives up the spare on which it kept its line, which is condemned. -/
theorem vacate (h : SparesSound spares (m :: map) promised) (hm : m.keepsSpare = true) :
    SparesSound (spares.set m.spare .defective) map promised := by
  have inUse : spares[m.spare]? = some .inUse := (h.inUse _).2 (keptOn_cons.2 (.inl ⟨hm, rfl⟩))
  have notPromised := h.notPromised inUse (by simp)
  obtain ⟨fresh, nodup⟩ := List.nodup_cons.1 h.mapSpares
  refine h.set inUse _ (fun j => ?_) (fun j => ?_) nodup h.promised
  · split
    · rename_i hij
      subst hij
      refine iff_of_false (fun ⟨x, hx, _, hxi⟩ => fresh ?_) (by simp)
      exact List.mem_map.2 ⟨x, hx, hxi⟩
    · simp_all [keptOn_cons]
  · split <;> simp_all

/-- A spare without a role is condemned (R134). -/
theorem condemn (h : SparesSound spares map promised) (free : spares[i]? = some .free) :
    SparesSound (spares.set i .defective) map promised := by
  simpa using (h.reserve free).unpromise (x := .defective) (by simp)

/-- A map entry is replaced by one on the same spare, which keeps its line there if the other did. -/
theorem replace (h : SparesSound spares (m :: map) promised) (hs : m'.spare = m.spare)
    (hk : m'.keepsSpare = m.keepsSpare) : SparesSound spares (m' :: map) promised where
  inUse j := by rw [h.inUse, keptOn_cons, keptOn_cons, hs, hk]
  reserved := h.reserved
  mapSpares := by simpa [hs] using h.mapSpares
  promised := h.promised

/-- R144: a map entry that does not keep its line on its spare stands on a spare of its own. -/
theorem attach (h : SparesSound spares map promised) (hk : m.keepsSpare = false) (fresh : ∀ x ∈ map, x.spare ≠ m.spare) :
    SparesSound spares (m :: map) promised where
  inUse j := by simp [h.inUse, keptOn_cons, hk]
  reserved := h.reserved
  mapSpares := List.nodup_cons.2 ⟨by simpa using fresh, h.mapSpares⟩
  promised := h.promised

/-- R147: a map entry that does not keep its line on its spare is removed. -/
theorem detach (h : SparesSound spares (m :: map) promised) (hk : m.keepsSpare = false) :
    SparesSound spares map promised where
  inUse j := by simp [h.inUse, keptOn_cons, hk]
  reserved := h.reserved
  mapSpares := (List.nodup_cons.1 h.mapSpares).2
  promised := h.promised

/-- No map entry that keeps its line is on a promised spare. -/
theorem spare_ne (h : SparesSound spares map promised) (hi : i ∈ promised) (hm : m ∈ map) (hk : m.keepsSpare = true) :
    m.spare ≠ i := by
  rintro rfl
  exact h.notPromised ((h.inUse m.spare).2 ⟨m, hm, hk, rfl⟩) (by simp) hi

/-- No map entry is on a FREE spare, if those that do not keep their line are on promised ones. -/
theorem spare_ne_of_free (h : SparesSound spares map promised) (free : spares[i]? = some .free) (hm : m ∈ map)
    (hk : m.keepsSpare = true ∨ m.spare ∈ promised) : m.spare ≠ i := by
  rintro rfl
  obtain hk | hp := hk
  · exact h.notKept free (by simp) ⟨m, hm, hk, rfl⟩
  · exact h.notPromised free (by simp) hp

end SparesSound

/-! ### The retirement map -/

/-- R137: the map stands in strictly ascending order of logical line. -/
abbrev Ascending (map : List MapEntry) : Prop := map.Pairwise fun a b => a.line.toNat < b.line.toNat

theorem ascending_iff_lines {map : List MapEntry} :
    Ascending map ↔ (map.map (·.line)).Pairwise fun a b => a.toNat < b.toNat := by
  rw [List.pairwise_map]

/-- R137: a map entry has the place of its line, and no other entry has that line. -/
theorem insertMap_perm (m : MapEntry) (map : List MapEntry) : (insertMap m map).Perm (m :: map) := by
  induction map with
  | nil => exact .refl _
  | cons x xs ih =>
    unfold insertMap
    split
    · exact .refl _
    · exact (ih.cons x).trans (.swap m x xs)

theorem Ascending.insertMap {map : List MapEntry} (h : Ascending map) {m : MapEntry}
    (fresh : ∀ x ∈ map, x.line ≠ m.line) : Ascending (insertMap m map) := by
  induction map with
  | nil => exact List.pairwise_singleton ..
  | cons x xs ih =>
    obtain ⟨first, rest⟩ := List.pairwise_cons.1 h
    unfold Machine.insertMap
    split
    · rename_i lt
      refine List.pairwise_cons.2 ⟨fun y hy => ?_, h⟩
      obtain rfl | hy := List.mem_cons.1 hy
      · exact lt
      · exact lt.trans (first y hy)
    · rename_i le
      refine List.pairwise_cons.2 ⟨fun y hy => ?_, ih rest fun y hy => fresh y (List.mem_cons_of_mem x hy)⟩
      obtain rfl | hy := List.mem_cons.1 ((insertMap_perm m xs).mem_iff.1 hy)
      · exact lt_of_le_of_ne (not_lt.1 le) fun e => fresh x List.mem_cons_self (BitVec.eq_of_toNat_eq e)
      · exact first y hy

/-- The map entries of the other lines. -/
def otherLines (l : LineNo) (map : List MapEntry) : List MapEntry := map.filter fun x => x.line ≠ l

theorem mem_otherLines {l : LineNo} {map : List MapEntry} {x : MapEntry} :
    x ∈ otherLines l map ↔ x ∈ map ∧ x.line ≠ l := by simp [otherLines]

/-- R137: one entry of a line stands in the map, whatever is done to it, beside those of the other lines. -/
theorem Ascending.changeMap_perm {map : List MapEntry} (h : Ascending map) {m : MapEntry} (hm : m ∈ map)
    (f : MapEntry → MapEntry) : (changeMap m.line f map).Perm (f m :: otherLines m.line map) := by
  obtain ⟨as, bs, rfl⟩ := List.append_of_mem hm
  obtain ⟨-, after, before⟩ := List.pairwise_append.1 h
  have below (x : MapEntry) (hx : x ∈ as) : x.line ≠ m.line := fun e =>
    absurd (before x hx m List.mem_cons_self) (by simp [e])
  have above (x : MapEntry) (hx : x ∈ bs) : x.line ≠ m.line := fun e =>
    absurd ((List.pairwise_cons.1 after).1 x hx) (by simp [e])
  have keptBelow : otherLines m.line as = as := List.filter_eq_self.2 fun x hx => by simpa using below x hx
  have keptAbove : otherLines m.line bs = bs := List.filter_eq_self.2 fun x hx => by simpa using above x hx
  have others : otherLines m.line (as ++ m :: bs) = as ++ bs := by
    calc otherLines m.line (as ++ m :: bs)
      _ = otherLines m.line as ++ otherLines m.line bs := by simp [otherLines]
      _ = as ++ bs := by rw [keptBelow, keptAbove]
  have changed : changeMap m.line f (as ++ m :: bs) = as ++ f m :: bs := by
    have same (xs : List MapEntry) (hx : ∀ x ∈ xs, x.line ≠ m.line) : changeMap m.line f xs = xs :=
      (List.map_congr_left fun x h => if_neg (hx x h)).trans (List.map_id xs)
    calc changeMap m.line f (as ++ m :: bs)
      _ = changeMap m.line f as ++ f m :: changeMap m.line f bs := by simp [changeMap]
      _ = as ++ f m :: bs := by rw [same as below, same bs above]
  rw [others, changed]
  exact List.perm_middle

theorem Ascending.perm_otherLines {map : List MapEntry} (h : Ascending map) {m : MapEntry} (hm : m ∈ map) :
    map.Perm (m :: otherLines m.line map) := by
  have same : changeMap m.line id map = map := by simp [changeMap]
  simpa [same] using h.changeMap_perm hm id

theorem changeMap_lines {f : MapEntry → MapEntry} (hf : ∀ m, (f m).line = m.line) (l : LineNo) (map : List MapEntry) :
    (changeMap l f map).map (·.line) = map.map (·.line) := by
  rw [changeMap, List.map_map]
  refine List.map_congr_left fun x _ => ?_
  simp only [Function.comp_apply]
  split
  · exact hf x
  · rfl

theorem Ascending.changeMap {map : List MapEntry} (h : Ascending map) {f : MapEntry → MapEntry}
    (hf : ∀ m, (f m).line = m.line) (l : LineNo) : Ascending (changeMap l f map) := by
  rwa [ascending_iff_lines, changeMap_lines hf, ← ascending_iff_lines]

theorem Ascending.otherLines {map : List MapEntry} (h : Ascending map) (l : LineNo) : Ascending (otherLines l map) :=
  List.Pairwise.filter _ h

theorem Retirement.entry_eq_some {r : Retirement} {l : LineNo} {m : MapEntry} (h : r.entry l = some m) :
    m ∈ r.map ∧ m.line = l := ⟨List.mem_of_find?_eq_some h, by simpa using List.find?_some h⟩

theorem Retirement.entry_eq_none {r : Retirement} {l : LineNo} : r.entry l = none ↔ ∀ m ∈ r.map, m.line ≠ l := by
  simp [Retirement.entry]

/-- R137: an entry of the map is found by its line. -/
theorem Retirement.entry_of_mem {r : Retirement} (h : Ascending r.map) {m : MapEntry} (hm : m ∈ r.map) :
    r.entry m.line = some m := by
  cases he : r.entry m.line with
  | none => exact absurd rfl (Retirement.entry_eq_none.1 he m hm)
  | some x =>
    obtain ⟨hx, hl⟩ := Retirement.entry_eq_some he
    have : x ∈ m :: Machine.otherLines m.line r.map := (h.perm_otherLines hm).mem_iff.1 hx
    obtain rfl | hx := List.mem_cons.1 this
    · rfl
    · exact absurd hl (mem_otherLines.1 hx).2

/-! ### A map entry and the copy in progress -/

/-- R137, R144: an ACTIVE map entry has no pending spare; a COPYING one is that of the copy in progress, and the spare
promised to the copy is its own at a first retirement, its pending one at a re-retire. -/
structure MapEntry.Fits (copy : Option CopyJob) (m : MapEntry) : Prop where
  active : m.state = .active → m.pending = none
  copying : m.state = .copying → ∃ j, copy = some j ∧ m.line = j.line
    ∧ ((m.pending = none ∧ m.spare = j.spare) ∨ m.pending = some j.spare)

namespace MapEntry
variable {m : MapEntry} {copy : Option CopyJob}

theorem keepsSpare_of_active (h : m.state = .active) : m.keepsSpare = true := by simp [keepsSpare, h]

theorem keepsSpare_of_copying (h : m.state = .copying) : m.keepsSpare = m.pending.isSome := by simp [keepsSpare, h]

theorem state_ne_active : m.state ≠ .active ↔ m.state = .copying := by cases m.state <;> simp

/-- An ACTIVE entry fits any copy. -/
theorem Fits.of_active (h : m.Fits copy) (hs : m.state = .active) (copy' : Option CopyJob) : m.Fits copy' :=
  ⟨h.active, fun hc => by simp [hs] at hc⟩

/-- R144: only the entry of the line that is being copied is COPYING. -/
theorem Fits.state_active (h : m.Fits copy) (hl : ∀ j, copy = some j → m.line ≠ j.line) : m.state = .active := by
  by_contra hs
  obtain ⟨j, hj, line, -⟩ := h.copying (state_ne_active.1 hs)
  exact hl j hj line

/-- R133: an entry that does not keep its line on its spare stands on the spare promised to the copy. -/
theorem Fits.keeps_or_promised (h : m.Fits copy) : m.keepsSpare = true ∨ ∃ j, copy = some j ∧ m.spare = j.spare := by
  by_cases hs : m.state = .active
  · exact .inl (keepsSpare_of_active hs)
  · obtain ⟨j, hj, -, ⟨-, spare⟩ | pending⟩ := h.copying (state_ne_active.1 hs)
    · exact .inr ⟨j, hj, spare⟩
    · exact .inl (by simp [keepsSpare, pending])

end MapEntry

end Sys2Proof.Machine
end

section
/-! SUPPORT. The law of the retirement unit with a spare area defined (O58): what each of its operations must show to keep
it, over the area, the retire queue, the map and the copy in progress. -/

namespace Sys2Proof.Machine

/-- What is to be retired, with the spares promised (R133, R139): the lines that are queued and the one being copied. -/
def jobs (queue : List RetireEntry) (copy : Option CopyJob) : List (LineNo × Nat) :=
  queue.map (fun q => (q.line, q.spare)) ++ copy.toList.map fun j => (j.line, j.spare)

theorem jobs_spares (r : Retirement) : (jobs r.queue r.copy).map (·.2) = r.promised := by
  simp [jobs, Retirement.promised, Function.comp_def]

/-- R130, R133, R137, R139: the law of the retirement unit while a spare area is defined. -/
structure RetireLaw (a : SpareArea) (queue : List RetireEntry) (map : List MapEntry) (copy : Option CopyJob) : Prop where
  size : 1 ≤ a.spares.length ∧ a.spares.length ≤ 256
  room : queue.length ≤ 8
  lines : ((jobs queue copy).map (·.1)).Nodup
  spares : SparesSound a.spares map ((jobs queue copy).map (·.2))
  ascending : Ascending map
  fits : ∀ m ∈ map, m.Fits copy
  outside : ∀ l, l ∈ map.map (·.line) ∨ l ∈ (jobs queue copy).map (·.1) → a.contains l = false

/-- The area with one spare in another state. -/
def SpareArea.set (a : SpareArea) (i : Nat) (x : SpareState) : SpareArea := { a with spares := a.spares.set i x }

@[simp] theorem SpareArea.set_length (a : SpareArea) (i : Nat) (x : SpareState) :
    (a.set i x).spares.length = a.spares.length := List.length_set ..

@[simp] theorem SpareArea.set_contains (a : SpareArea) (i : Nat) (x : SpareState) (l : LineNo) :
    (a.set i x).contains l = a.contains l := by
  rw [SpareArea.contains, SpareArea.set_length]
  rfl

namespace RetireLaw
variable {a : SpareArea} {queue : List RetireEntry} {map : List MapEntry} {copy : Option CopyJob} {i : Nat}

/-- R137: no two map entries share a spare of the area, which has 256 at most. -/
theorem length_map (h : RetireLaw a queue map copy) : map.length ≤ 256 := by
  have inArea : ∀ i ∈ map.map (·.spare), i < a.spares.length := fun i hi => by
    obtain ⟨m, hm, rfl⟩ := List.mem_map.1 hi
    obtain hk | ⟨j, rfl, hs⟩ := (h.fits m hm).keeps_or_promised
    · exact (List.getElem?_eq_some_iff.1 ((h.spares.inUse m.spare).2 ⟨m, hm, hk, rfl⟩)).1
    · exact (List.getElem?_eq_some_iff.1 ((h.spares.reserved m.spare).2 (by simp [hs, jobs]))).1
  have count : map.length ≤ a.spares.length := by
    simpa using (List.subperm_of_subset h.spares.mapSpares fun i hi => List.mem_range.2 (inArea i hi)).length_le
  exact count.trans h.size.2

/-- R140: a line joins the retire queue, and the FREE spare it is to move to is promised. -/
theorem enqueue (h : RetireLaw a queue map copy) {l : LineNo} (free : a.spares[i]? = some .free) (room : queue.length < 8)
    (fresh : l ∉ (jobs queue copy).map (·.1)) (out : a.contains l = false) (o : RetireOrigin) :
    RetireLaw (a.set i .reserved) (queue ++ [{ line := l, origin := o, spare := i }]) map copy := by
  have joined : (jobs (queue ++ [{ line := l, origin := o, spare := i }]) copy).Perm ((l, i) :: jobs queue copy) := by
    simp [jobs, List.perm_middle]
  refine ⟨by simpa using h.size, by simp; omega, ?_, ?_, h.ascending, h.fits, fun k hk => ?_⟩
  · exact (joined.map _).nodup_iff.2 (List.nodup_cons.2 ⟨fresh, h.lines⟩)
  · exact (h.spares.reserve free).perm (.refl _) (joined.map fun x : LineNo × Nat => x.2).symm
  · rw [SpareArea.set_contains]
    obtain hk | hk := hk
    · exact h.outside k (.inl hk)
    · obtain rfl | hk := List.mem_cons.1 ((joined.map _).mem_iff.1 hk)
      · exact out
      · exact h.outside k (.inr hk)

/-- R136, R141: an entry leaves the retire queue, and its spare is FREE again. -/
theorem dequeue (h : RetireLaw a queue map copy) {q : RetireEntry} {rest : List RetireEntry}
    (hq : queue.Perm (q :: rest)) : RetireLaw (a.set q.spare .free) rest map copy := by
  have left : (jobs queue copy).Perm ((q.line, q.spare) :: jobs rest copy) :=
    (hq.map fun q => (q.line, q.spare)).append_right _
  refine ⟨by simpa using h.size, ?_, ?_, ?_, h.ascending, h.fits, fun k hk => ?_⟩
  · have := h.room
    rw [hq.length_eq, List.length_cons] at this
    omega
  · exact (List.nodup_cons.1 ((left.map _).nodup_iff.1 h.lines)).2
  · exact (h.spares.perm (.refl _) (left.map _)).unpromise (by simp)
  · rw [SpareArea.set_contains]
    exact h.outside k (hk.imp_right fun hk => (left.map _).mem_iff.2 (List.mem_cons_of_mem _ hk))

/-- R136: every entry of the retire queue fails. -/
theorem dequeueAll (h : RetireLaw a queue map copy) :
    RetireLaw { a with spares := queue.foldl (fun xs q => xs.set q.spare .free) a.spares } [] map copy := by
  induction queue generalizing a with
  | nil => exact h
  | cons q rest ih => exact ih (h.dequeue (.refl _))

/-- R143: with no copy in progress the head of the retire queue becomes one. -/
theorem start {q : RetireEntry} {rest : List RetireEntry} (h : RetireLaw a (q :: rest) map none) (void : Bool) :
    RetireLaw a rest map (some { line := q.line, origin := q.origin, spare := q.spare, void := void }) := by
  have moved : (jobs (q :: rest) none).Perm
      (jobs rest (some { line := q.line, origin := q.origin, spare := q.spare, void := void })) := by
    simpa [jobs] using (List.perm_append_singleton ..).symm
  refine ⟨h.size, (Nat.le_succ _).trans h.room, (moved.map _).nodup_iff.1 h.lines,
    h.spares.perm (.refl _) (moved.map _), h.ascending, fun m hm => ?_, fun k hk => ?_⟩
  · exact (h.fits m hm).of_active ((h.fits m hm).state_active (by simp)) _
  · exact h.outside k (hk.imp_right (moved.map _).mem_iff.2)

/-- R145: the void flag of the copy. -/
theorem setVoid {job : CopyJob} (h : RetireLaw a queue map (some job)) (void : Bool) :
    RetireLaw a queue map (some { job with void := void }) where
  size := h.size
  room := h.room
  lines := h.lines
  spares := h.spares
  ascending := h.ascending
  fits m hm := ⟨(h.fits m hm).active, fun hc => by
    obtain ⟨j, hj, fits⟩ := (h.fits m hm).copying hc
    obtain rfl := Option.some.inj hj
    exact ⟨_, rfl, fits⟩⟩
  outside := h.outside

/-- R134: a FREE spare is condemned. -/
theorem condemn (h : RetireLaw a queue map copy) (free : a.spares[i]? = some .free) :
    RetireLaw (a.set i .defective) queue map copy where
  size := by simpa using h.size
  room := h.room
  lines := h.lines
  spares := h.spares.condemn free
  ascending := h.ascending
  fits := h.fits
  outside l hl := by simpa using h.outside l hl

/-- R132: a new spare area, with nothing to be retired and nothing retired. -/
theorem new (base : LineNo) {count : Nat} (h : 1 ≤ count ∧ count ≤ 256) :
    RetireLaw { base := base, spares := List.replicate count .free } [] [] none := by
  refine ⟨by simpa using h, by simp, by simp [jobs], ⟨fun i => ?_, fun i => ?_, by simp, by simp [jobs]⟩, .nil, by simp,
    by simp [jobs]⟩
  · simp [KeptOn, List.getElem?_replicate]
  · simp [jobs, List.getElem?_replicate]

/-- R142: an ACTIVE entry of a line that the map does not hold joins the map, on a FREE spare. -/
theorem load (h : RetireLaw a queue map copy) (free : a.spares[i]? = some .free) {m : MapEntry} (hs : m.spare = i)
    (active : m.state = .active) (hp : m.pending = none) (fresh : ∀ x ∈ map, x.line ≠ m.line)
    (out : a.contains m.line = false) : RetireLaw (a.set i .inUse) queue (insertMap m map) copy := by
  have perm := insertMap_perm m map
  have elsewhere : ∀ x ∈ map, x.spare ≠ i := fun x hx => by
    refine h.spares.spare_ne_of_free free hx ((h.fits x hx).keeps_or_promised.imp_right ?_)
    rintro ⟨j, rfl, hj⟩
    simp [hj, jobs]
  refine ⟨by simpa using h.size, h.room, h.lines, ?_, h.ascending.insertMap fresh, fun x hx => ?_, fun k hk => ?_⟩
  · have occupied := (h.spares.reserve free).occupy (MapEntry.keepsSpare_of_active active) hs elsewhere
    rw [List.set_set] at occupied
    exact occupied.perm perm.symm (.refl _)
  · obtain rfl | hx := List.mem_cons.1 (perm.mem_iff.1 hx)
    · exact ⟨fun _ => hp, by simp [active]⟩
    · exact h.fits x hx
  · rw [SpareArea.set_contains]
    obtain hk | hk := hk
    · obtain rfl | hk := List.mem_cons.1 ((perm.map _).mem_iff.1 hk)
      · exact out
      · exact h.outside k (.inl hk)
    · exact h.outside k (.inr hk)

end RetireLaw

end Sys2Proof.Machine
end

section
/-! SUPPORT. The map and the spares over the life of a copy (O26, O58): the map that its ownership prepares, and the tables
after its success and after its failure. -/

namespace Sys2Proof.Machine

/-- R144: the map entry that a first retirement inserts. -/
def CopyJob.newEntry (job : CopyJob) : MapEntry :=
  { line := job.line, spare := job.spare, state := .copying, pending := none, auto := decide (job.origin = .auto),
    void := false, time := none }

/-- R144: a map entry whose line is retired once more, to a pending spare. -/
def MapEntry.recopied (i : Nat) (m : MapEntry) : MapEntry := { m with state := .copying, pending := some i }

@[simp] theorem MapEntry.recopied_line (i : Nat) (m : MapEntry) : (m.recopied i).line = m.line := rfl

/-- R147: a map entry that is ACTIVE on its old spare again. -/
def MapEntry.restored (m : MapEntry) : MapEntry := { m with state := .active, pending := none }

@[simp] theorem MapEntry.restored_line (m : MapEntry) : m.restored.line = m.line := rfl

/-- R144: the map after the copy has become owner. -/
def Retirement.preparedMap (job : CopyJob) (r : Retirement) : List MapEntry :=
  match r.entry job.line with
  | none => insertMap job.newEntry r.map
  | some _ => changeMap job.line (MapEntry.recopied job.spare) r.map

theorem State.prepareMap_retirement (job : CopyJob) (s : State) :
    (s.prepareMap job).retirement = { s.retirement with map := s.retirement.preparedMap job } := by
  unfold State.prepareMap Retirement.preparedMap
  cases s.retirement.entry job.line <;> rfl

theorem jobs_copy (queue : List RetireEntry) (job : CopyJob) :
    (jobs queue (some job)).Perm ((job.line, job.spare) :: jobs queue none) := by
  simp [jobs, List.perm_append_singleton]

namespace RetireLaw
variable {a : SpareArea} {queue : List RetireEntry} {map map' : List MapEntry} {job : CopyJob} {m : MapEntry}

/-- The map changes while the copy is in progress, its lines staying among those named. -/
theorem withMap (h : RetireLaw a queue map (some job))
    (spares : SparesSound a.spares map' ((jobs queue (some job)).map (·.2))) (ascending : Ascending map')
    (fits : ∀ x ∈ map', x.Fits (some job)) (lines : ∀ x ∈ map', x.line = job.line ∨ x.line ∈ map.map (·.line)) :
    RetireLaw a queue map' (some job) := by
  refine ⟨h.size, h.room, h.lines, spares, ascending, fits, fun l hl => ?_⟩
  obtain hl | hl := hl
  · obtain ⟨x, hx, rfl⟩ := List.mem_map.1 hl
    obtain hj | hx := lines x hx
    · exact h.outside _ (.inr (by simp [hj, jobs]))
    · exact h.outside _ (.inl hx)
  · exact h.outside l (.inr hl)

/-- R144: the copy becomes owner, and the map holds a COPYING entry of its line. -/
theorem prepare {r : Retirement} (h : RetireLaw a r.queue r.map (some job)) (active : ∀ x ∈ r.map, x.state = .active) :
    RetireLaw a r.queue (r.preparedMap job) (some job) ∧ ∃ x ∈ r.preparedMap job, x.state ≠ .active := by
  have promised : job.spare ∈ (jobs r.queue (some job)).map (·.2) := by simp [jobs]
  unfold Retirement.preparedMap
  split
  · rename_i absent
    have absent := Retirement.entry_eq_none.1 absent
    have perm := insertMap_perm job.newEntry r.map
    have fresh : ∀ x ∈ r.map, x.spare ≠ job.spare := fun x hx =>
      h.spares.spare_ne promised hx (MapEntry.keepsSpare_of_active (active x hx))
    refine ⟨h.withMap ((h.spares.attach rfl fresh).perm perm.symm (.refl _)) (h.ascending.insertMap absent)
      (fun x hx => ?_) fun x hx => ?_, _, perm.mem_iff.2 List.mem_cons_self, by simp [CopyJob.newEntry]⟩
    · obtain rfl | hx := List.mem_cons.1 (perm.mem_iff.1 hx)
      · exact ⟨by simp [CopyJob.newEntry], fun _ => ⟨job, rfl, rfl, .inl ⟨rfl, rfl⟩⟩⟩
      · exact h.fits x hx
    · obtain rfl | hx := List.mem_cons.1 (perm.mem_iff.1 hx)
      · exact .inl rfl
      · exact .inr (List.mem_map_of_mem hx)
  · rename_i m found
    obtain ⟨hm, hl⟩ := Retirement.entry_eq_some found
    have perm := h.ascending.changeMap_perm hm (MapEntry.recopied job.spare)
    have spares := h.spares.perm (h.ascending.perm_otherLines hm) (.refl _)
    have kept := MapEntry.keepsSpare_of_active (active m hm)
    rw [← hl]
    have replaced := spares.replace (m' := m.recopied job.spare) rfl (by rw [kept]; rfl)
    refine ⟨h.withMap (replaced.perm perm.symm (.refl _)) (h.ascending.changeMap (MapEntry.recopied_line _) _)
      (fun x hx => ?_) fun x hx => ?_, _, perm.mem_iff.2 List.mem_cons_self, by simp [MapEntry.recopied]⟩
    · obtain rfl | hx := List.mem_cons.1 (perm.mem_iff.1 hx)
      · exact ⟨by simp [MapEntry.recopied], fun _ => ⟨job, rfl, hl, .inr rfl⟩⟩
      · exact h.fits x (mem_otherLines.1 hx).1
    · rw [← changeMap_lines (MapEntry.recopied_line job.spare) m.line]
      exact .inr (List.mem_map_of_mem hx)

/-- R139: the copy ends, with the spare promised to it in another role or in none, and no map entry COPYING. -/
theorem finish (h : RetireLaw a queue map (some job)) {spares' : List SpareState}
    (length : spares'.length = a.spares.length) (spares : SparesSound spares' map' ((jobs queue none).map (·.2)))
    (ascending : Ascending map') (active : ∀ x ∈ map', x.state = .active ∧ x.pending = none)
    (lines : ∀ x ∈ map', x.line ∈ map.map (·.line)) :
    RetireLaw { a with spares := spares' } queue map' none := by
  have named := (jobs_copy queue job).map fun x : LineNo × Nat => x.1
  refine ⟨by simpa [length] using h.size, h.room, ?_, spares, ascending, fun x hx => ?_, fun l hl => ?_⟩
  · exact (List.nodup_cons.1 (named.nodup_iff.1 h.lines)).2
  · obtain ⟨state, pending⟩ := active x hx
    exact ⟨fun _ => pending, by simp [state]⟩
  · have same : ({ a with spares := spares' } : SpareArea).contains l = a.contains l := by
      rw [SpareArea.contains, SpareArea.contains, length]
    rw [same]
    obtain hl | hl := hl
    · obtain ⟨x, hx, rfl⟩ := List.mem_map.1 hl
      exact h.outside _ (.inl (lines x hx))
    · exact h.outside l (.inr (named.mem_iff.2 (List.mem_cons_of_mem _ hl)))

/-- R144: the COPYING entry is that of the copy's line, beside ACTIVE ones. -/
theorem copying_split (h : RetireLaw a queue map (some job)) (hm : m ∈ map) (hc : m.state = .copying) :
    m.line = job.line ∧ ((m.pending = none ∧ m.spare = job.spare) ∨ m.pending = some job.spare)
      ∧ SparesSound a.spares (m :: otherLines m.line map) (job.spare :: (jobs queue none).map (·.2))
      ∧ ∀ x ∈ otherLines m.line map, x.state = .active ∧ x.pending = none := by
  obtain ⟨j, hj, line, spare⟩ := (h.fits m hm).copying hc
  obtain rfl := Option.some.inj hj
  refine ⟨line, spare, h.spares.perm (h.ascending.perm_otherLines hm) ((jobs_copy queue job).map _), fun x hx => ?_⟩
  obtain ⟨hx, hl⟩ := mem_otherLines.1 hx
  have state := (h.fits x hx).state_active fun j hj e => hl (by rw [e, line, Option.some.inj hj])
  exact ⟨state, (h.fits x hx).active state⟩

/-- R146: the copy succeeds: its line stands on the new spare, and the old one of a re-retire is condemned. -/
theorem succeed (h : RetireLaw a queue map (some job)) (hm : m ∈ map) (hc : m.state = .copying)
    {f : MapEntry → MapEntry} (line : ∀ x, (f x).line = x.line) (spare : ∀ x, (f x).spare = job.spare)
    (state : ∀ x, (f x).state = .active) (pending : ∀ x, (f x).pending = none) :
    RetireLaw
      { a with spares :=
          if m.pending.isSome then (a.spares.set job.spare .inUse).set m.spare .defective
          else a.spares.set job.spare .inUse } queue (changeMap job.line f map) none := by
  obtain ⟨hl, own, spares, active⟩ := h.copying_split hm hc
  have perm := h.ascending.changeMap_perm hm f
  have fresh : ∀ x ∈ otherLines m.line map, x.spare ≠ job.spare := fun x hx =>
    spares.spare_ne List.mem_cons_self (List.mem_cons_of_mem m hx) (MapEntry.keepsSpare_of_active (active x hx).1)
  have kept := MapEntry.keepsSpare_of_active (state m)
  rw [← hl]
  refine h.finish (by split <;> simp) (.perm ?_ perm.symm (.refl _)) (h.ascending.changeMap line _) (fun x hx => ?_)
    fun x hx => ?_
  · obtain ⟨none, -⟩ | some := own
    · have detached := spares.detach (by simp [MapEntry.keepsSpare_of_copying hc, none])
      rw [if_neg (by simp [none])]
      exact detached.occupy kept (spare m) fresh
    · have keeps : m.keepsSpare = true := by simp [MapEntry.keepsSpare_of_copying hc, some]
      have apart := spares.spare_ne List.mem_cons_self List.mem_cons_self keeps
      rw [if_pos (by simp [some]), List.set_comm _ _ apart.symm]
      exact (spares.vacate keeps).occupy kept (spare m) fresh
  · obtain rfl | hx := List.mem_cons.1 (perm.mem_iff.1 hx)
    · exact ⟨state m, pending m⟩
    · exact active x hx
  · rw [← changeMap_lines line m.line]
    exact List.mem_map_of_mem hx

/-- R147: a copy fails that had become owner: the map is as it was before. -/
theorem fail {r : Retirement} (h : RetireLaw a r.queue r.map (some job)) (hm : m ∈ r.map) (hc : m.state = .copying)
    {x : SpareState} (hx : x ≠ .inUse ∧ x ≠ .reserved) :
    RetireLaw (a.set job.spare x) r.queue (r.restoredMap job.line) none := by
  obtain ⟨hl, own, spares, active⟩ := h.copying_split hm hc
  have restored : r.restoredMap job.line = if m.pending.isSome then
      changeMap m.line MapEntry.restored r.map else otherLines m.line r.map := by
    simp only [Retirement.restoredMap, ← hl, Retirement.entry_of_mem h.ascending hm]
    rfl
  rw [restored]
  obtain ⟨none, -⟩ | some := own
  · rw [if_neg (by simp [none])]
    refine h.finish (List.length_set ..) ?_ (h.ascending.otherLines _) active fun x hx => ?_
    · exact (spares.detach (by simp [MapEntry.keepsSpare_of_copying hc, none])).unpromise hx
    · exact List.mem_map_of_mem (mem_otherLines.1 hx).1
  · have perm := h.ascending.changeMap_perm hm MapEntry.restored
    rw [if_pos (by simp [some])]
    have replaced := spares.replace (m' := m.restored) rfl
      (by simp [MapEntry.keepsSpare_of_copying hc, some, MapEntry.keepsSpare_of_active, MapEntry.restored])
    refine h.finish (List.length_set ..) ((replaced.unpromise hx).perm perm.symm (.refl _))
      (h.ascending.changeMap MapEntry.restored_line _) (fun x hx => ?_) fun x hx => ?_
    · obtain rfl | hx := List.mem_cons.1 (perm.mem_iff.1 hx)
      · exact ⟨rfl, rfl⟩
      · exact active x hx
    · rw [← changeMap_lines MapEntry.restored_line m.line]
      exact List.mem_map_of_mem hx

/-- R147: a copy fails that had not become owner: the map is as it is. -/
theorem failWaiting (h : RetireLaw a queue map (some job)) (active : ∀ m ∈ map, m.state = .active) {x : SpareState}
    (hx : x ≠ .inUse ∧ x ≠ .reserved) : RetireLaw (a.set job.spare x) queue map none :=
  h.finish (List.length_set ..) ((h.spares.perm (.refl _) ((jobs_copy queue job).map _)).unpromise hx) h.ascending
    (fun m hm => ⟨active m hm, (h.fits m hm).active (active m hm)⟩) fun _ hm => List.mem_map_of_mem hm

end RetireLaw

end Sys2Proof.Machine
end

section
/-! SUPPORT. An acknowledged copy (O26): the spares, the map, and what is forgotten of its line. -/

namespace Sys2Proof.Machine

/-- R146: the map entry of a line that is retired. -/
def MapEntry.activated (now : Time) (job : CopyJob) (m : MapEntry) : MapEntry :=
  { m with spare := job.spare, state := .active, pending := none, auto := decide (job.origin = .auto), void := job.void,
           time := some now }

/-- R146: the spares after a copy that had the map entry `m`. -/
def SpareArea.moved (a : SpareArea) (job : CopyJob) (m : MapEntry) : List SpareState :=
  if m.pending.isSome then (a.spares.set job.spare .inUse).set m.spare .defective else a.spares.set job.spare .inUse

section
variable {s : State} {job : CopyJob} {a : SpareArea} {m : MapEntry}

theorem State.moveSpares_retirement (ha : s.retirement.area = some a) (hm : s.retirement.entry job.line = some m) :
    (s.moveSpares job).retirement = { s.retirement with area := some { a with spares := a.moved job m } } := by
  simp only [State.moveSpares, hm, SpareArea.moved]
  split <;> simp [State.setSpare_retirement, ha]

/-- R146: the tables of the retirement unit after the copy has succeeded. -/
theorem State.copySucceed_retirement (hj : s.retirement.copy = some job) (ha : s.retirement.area = some a)
    (hm : s.retirement.entry job.line = some m) (g : Option (Fin 32)) : (s.copySucceed g).retirement =
      { s.retirement with
        copy := none
        area := some { a with spares := a.moved job m }
        map := changeMap job.line (MapEntry.activated s.now job) s.retirement.map } := by
  have time : (s.moveSpares job).now = s.now := by simp [State.now]
  simp only [State.copySucceed, hj, State.raise_frame, State.endCopy, State.dropRepairs_frame, State.forgetHistory_frame,
    State.activateMap, State.setMap_retirement, State.moveSpares_retirement ha hm, time]
  rfl

/-- R146: what is forgotten of the line, and the record of the success. -/
theorem State.copySucceed_of_job (hj : s.retirement.copy = some job) (g : Option (Fin 32)) :
    (∀ j, (s.copySucceed g).slot j = (s.slot j).filter fun x => x.line ≠ job.line)
      ∧ (s.copySucceed g).patrol = { s.patrol with repairQueue := s.patrol.repairQueue.filter (· ≠ job.line) }
      ∧ (s.copySucceed g).events = s.events.push
          { kind := .retireDone, line := some job.line, region := g, spare := some job.spare
            physical := s.retirement.spareLine job.spare, origin := some job.origin.event
            reason := some (if job.void then .void else .data), requester := job.origin.name } := by
  simp only [State.copySucceed, hj]
  refine ⟨fun j => ?_, ?_, ?_⟩
  · simp [State.slot]
  · simp
  · simp

end

/-- Settles O26: the tables of the retirement unit, then the other blocks. -/
theorem copiesRetireTheirLineOnAcknowledgement : Obligations.CopiesRetireTheirLineOnAcknowledgement := by
  intro s tag i e job a m taken ho hj ha hm t moved
  have row : exec (.sdone tag 0) s = .next (((t.freeCredit i).copySucceed e.region).release i) := by
    rw [taken.exec_sdone, State.writeTaken, ho]
  obtain ⟨slots, patrol, events⟩ := State.copySucceed_of_job (s := t.freeCredit i) hj e.region
  have physical : (t.freeCredit i).retirement.spareLine job.spare = some (a.base + BitVec.ofNat 32 job.spare) := by
    simp [Retirement.spareLine, t, ha, SpareArea.line]
  rw [physical] at events
  refine ⟨_, row, ?_, slots, patrol, events, ?_, ?_, ?_⟩
  · exact State.copySucceed_retirement (s := t.freeCredit i) hj ha hm e.region
  · simp
  · simp [State.freeCredit]
  · simp

end Sys2Proof.Machine
end

section
/-! SUPPORT. The fill engine at work (O34): the entries it creates from its cursor, one line after another. -/

namespace Sys2Proof.Machine

/-! ### One fill entry -/

/-- R109: what the engine goes on with after the entry of line `l`, with `left` lines from the next one on. -/
def Fill.next (l : LineNo) (left : Nat) (f : Fill) : Fill :=
  { f with cursor := if left = 0 then none else some (l + 1), outstanding := f.outstanding ++ [l] }

/-- R109: the engine after entries for `n` lines from `l` on, of which there are `left`. -/
def Fill.ahead (l : LineNo) (left n : Nat) (f : Fill) : Fill :=
  { f with
    cursor := if n = left then none else some (l + BitVec.ofNat 32 n)
    outstanding := f.outstanding ++ (List.range n).map fun k => l + BitVec.ofNat 32 k }

/-- The line after `l`, and those after it. -/
theorem line_next (l : LineNo) (k : Nat) : l + 1 + BitVec.ofNat 32 k = l + BitVec.ofNat 32 (k + 1) := by
  rw [BitVec.add_assoc, add_comm k 1, BitVec.ofNat_add]
  rfl

theorem Fill.ahead_zero {f : Fill} {l : LineNo} {left : Nat} (h : f.cursor = if left = 0 then none else some l) :
    f.ahead l left 0 = f := by
  simp [Fill.ahead, eq_comm (a := 0), ← h]

theorem Fill.next_ahead (f : Fill) (l : LineNo) (left n : Nat) :
    (f.next l left).ahead (l + 1) left n = f.ahead l (left + 1) (n + 1) := by
  simp only [Fill.ahead, Fill.next, line_next, List.range_succ_eq_map, List.map_cons, List.map_map, Function.comp_def,
    List.append_assoc, List.singleton_append, Nat.add_right_cancel_iff, Nat.succ_eq_add_one]
  rw [show l + BitVec.ofNat 32 0 = l by simp]

/-- R109: the cursor goes on by one line, past the limit to ALL_ISSUED. -/
theorem State.fillOne_eq {s : State} {f : Fill} {l : LineNo} {r : Region} {left : Nat} (hr : s.region f.region = some r)
    (hl : l.toNat + left = r.limit.toNat) (i : Fin 64) :
    s.fillOne i f l = (s.setFill (some (f.next l left))).create i (fillEntry f.region l) := by
  have last : r.limit = l ↔ left = 0 := by
    rw [← BitVec.toNat_inj]
    omega
  simp [State.fillOne, Fill.next, hr, last]

/-- R110: what a fill entry holds when it has been created. -/
theorem State.entry_create_fill (s : State) (i : Fin 64) (g : Fin 32) (l : LineNo) :
    ∃ e, (s.create i (fillEntry g l)).entry i = some e ∧ e.origin = .fill ∧ e.line = l ∧ e.region = some g
      ∧ e.data = some zeroData ∧ e.writing = true := by
  rw [State.entry_create (by simp [fillEntry]), if_pos rfl]
  refine ⟨_, rfl, ?_⟩
  split <;> simp [fillEntry]

theorem State.entry_create_fill_of_ne (s : State) {i j : Fin 64} (h : j ≠ i) (g : Fin 32) (l : LineNo) :
    (s.create i (fillEntry g l)).entry j = s.entry j := by
  rw [State.entry_create (by simp [fillEntry]), if_neg h.symm]

/-- R45: a new fill entry joins the waiting order if it is owner at once. -/
theorem State.create_fill_memory (s : State) (i : Fin 64) (g : Fin 32) (l : LineNo) :
    ∃ ws : List (Fin 64), ws.Sublist [i] ∧ (s.create i (fillEntry g l)).memory = ws.foldl (fun m j => m.join j) s.memory := by
  rw [(State.create_effect (e := fillEntry g l) (by simp [fillEntry]) i).2]
  split
  · exact ⟨[i], .refl _, rfl⟩
  · exact ⟨[], List.nil_sublist _, rfl⟩

/-! ### Entries one after another -/

/-- R109, R110: `u` is `s` after the engine has created entries for `n` lines from `l` on, at the indices `js`. -/
structure State.Filled (f : Fill) (l : LineNo) (left n : Nat) (js : List (Fin 64)) (s u : State) : Prop where
  length : js.length = n
  order : u.tracker.order = s.tracker.order ++ js
  created : ∀ k j, js[k]? = some j → s.entry j = none ∧ ∃ e, u.entry j = some e ∧ e.origin = .fill
    ∧ e.line = l + BitVec.ofNat 32 k ∧ e.region = some f.region ∧ e.data = some zeroData ∧ e.writing = true
  kept : ∀ j, j ∉ js → u.entry j = s.entry j
  memory : ∃ ws : List (Fin 64), ws.Sublist js ∧ u.memory = ws.foldl (fun m j => m.join j) s.memory
  patrol : u.patrol = { s.patrol with fill := some (f.ahead l left n) }

/-- An engine that may create nothing, or has nothing to create. -/
theorem State.Filled.nothing {f : Fill} {l : LineNo} {left : Nat} {s : State} (hf : s.patrol.fill = some f)
    (hc : f.cursor = if left = 0 then none else some l) : s.Filled f l left 0 [] s where
  length := rfl
  order := by simp
  created := by simp
  kept _ _ := rfl
  memory := ⟨[], List.nil_sublist _, rfl⟩
  patrol := by rw [Fill.ahead_zero hc, ← hf]

/-- One entry, and then the entries of the lines after its own. -/
theorem State.Filled.step {f : Fill} {l : LineNo} {left n : Nat} {i : Fin 64} {js : List (Fin 64)} {s t u : State}
    (free : s.entry i = none) (ht : t = (s.setFill (some (f.next l left))).create i (fillEntry f.region l))
    (h : t.Filled (f.next l left) (l + 1) left n js u) : s.Filled f l (left + 1) (n + 1) (i :: js) u := by
  subst ht
  obtain ⟨e, he, fields⟩ := (s.setFill (some (f.next l left))).entry_create_fill i f.region l
  have others {j : Fin 64} (hj : j ≠ i) :
      ((s.setFill (some (f.next l left))).create i (fillEntry f.region l)).entry j = s.entry j :=
    State.entry_create_fill_of_ne _ hj f.region l
  have fresh : i ∉ js := fun hi => by
    obtain ⟨k, hk⟩ := List.mem_iff_getElem?.1 hi
    have absent := (h.created k i hk).1
    simp [he] at absent
  refine ⟨by simp [h.length], ?_, fun k j hk => ?_, fun j hj => ?_, ?_, ?_⟩
  · rw [h.order, (State.create_effect (by simp [fillEntry]) i).1]
    simp
  · cases k with
    | zero =>
      obtain rfl : i = j := by simpa using hk
      exact ⟨free, e, (h.kept i fresh).trans he, by simpa using fields⟩
    | succ k =>
      have hk : js[k]? = some j := by simpa using hk
      have created := h.created k j hk
      rwa [others fun hij => fresh (hij ▸ List.mem_of_getElem? hk), line_next] at created
  · obtain ⟨hji, hj⟩ := not_or.1 (mt List.mem_cons.2 hj)
    rw [h.kept j hj, others hji]
  · obtain ⟨ws, hws, hm⟩ := h.memory
    obtain ⟨vs, hvs, hm₁⟩ := (s.setFill (some (f.next l left))).create_fill_memory i f.region l
    exact ⟨vs ++ ws, hvs.append hws, by rw [hm, hm₁, List.foldl_append]; rfl⟩
  · rw [h.patrol, Fill.next_ahead]
    simp [State.setFill]

theorem State.fillReady_of_fill {s : State} {f : Fill} (hf : s.patrol.fill = some f) (hp : f.phase = .issuing) :
    s.fillReady = (s.slotFor .patrol).bind fun i => f.cursor.map fun l => (i, f, l) := by
  unfold State.fillReady
  rw [hf]
  cases s.slotFor .patrol with
  | none => rfl
  | some i => cases hc : f.cursor <;> simp [hp, hc]

theorem State.fillSome_of_notReady {s : State} (h : s.fillReady = none) (n : Nat) : s.fillSome n = s := by
  cases n <;> simp [State.fillSome, h]

/-- R109: the engine creates entries until the pool is full or the cursor has passed the limit. -/
theorem State.fillSome_filled {s : State} (hs : s.TrackerSound) {f : Fill} {l : LineNo} {r : Region} {left : Nat}
    (hf : s.patrol.fill = some f) (hp : f.phase = .issuing) (hc : f.cursor = if left = 0 then none else some l)
    (hr : s.region f.region = some r) (hl : left ≠ 0 → l.toNat + left = r.limit.toNat + 1) (n : Nat) :
    ∃ js, s.Filled f l left (min (min n (6 - s.occupancy .patrol)) left) js (s.fillSome n) := by
  induction n generalizing s f l left with
  | zero =>
    rw [Nat.zero_min, Nat.zero_min]
    exact ⟨[], .nothing hf hc⟩
  | succ n ih =>
    have ready := State.fillReady_of_fill hf hp
    cases slot : s.slotFor .patrol with
    | none =>
      have full : ¬s.occupancy .patrol < 6 := fun h => by
        have := hs.slotFor_isSome (p := .patrol).2 h
        simp [slot] at this
      rw [State.fillSome_of_notReady (by simp [ready, slot]), Nat.sub_eq_zero_of_le (not_lt.1 full), Nat.min_zero, Nat.zero_min]
      exact ⟨[], .nothing hf hc⟩
    | some i =>
      cases left with
      | zero =>
        rw [State.fillSome_of_notReady (by simp [ready, slot, hc]), Nat.min_zero]
        exact ⟨[], .nothing hf hc⟩
      | succ left =>
        have up : s.memory.link = .up := by
          cases h : s.memory.link with
          | up => rfl
          | down => simp [hs.fill h] at hf
        obtain ⟨room, free, -⟩ := State.slotFor_eq_some.1 slot
        have toLimit := hl (by simp)
        have goes : s.fillSome (n + 1) = (s.fillOne i f l).fillSome n := by
          simp [State.fillSome, ready, slot, hc]
        rw [goes, State.fillOne_eq (left := left) hr (by omega)]
        have moved : (s.setFill (some (f.next l left))).TrackerSound := hs.same rfl ⟨rfl, rfl, by simp [hf]⟩
        have occupancy : ((s.setFill (some (f.next l left))).create i (fillEntry f.region l)).occupancy .patrol
            = s.occupancy .patrol + 1 :=
          State.occupancy_create (s := s.setFill (some (f.next l left))) (e := fillEntry f.region l)
            (by simp [fillEntry]) free .patrol
        have rest : left ≠ 0 → (l + 1).toNat + left = r.limit.toNat + 1 := fun more => by
          have inMemory := r.limit.isLt
          have next : (l + 1).toNat = l.toNat + 1 := by bv_omega
          omega
        obtain ⟨js, filled⟩ := ih (s := (s.setFill (some (f.next l left))).create i (fillEntry f.region l))
          (f := f.next l left) (l := l + 1) (left := left)
          (moved.createPatrol (.inr (.inr rfl)) (fun _ => rfl) slot up) (by simp) hp rfl
          ((State.region_of_regions (s := s) (by simp) _).trans hr) rest
        rw [occupancy] at filled
        refine ⟨i :: js, ?_⟩
        have count : min (min (n + 1) (6 - s.occupancy .patrol)) (left + 1)
            = min (min n (6 - (s.occupancy .patrol + 1))) left + 1 := by
          simp only [Pool.ceiling] at room
          omega
        rw [count]
        exact .step free rfl filled

@[simp] theorem State.fillSome_retirement (n : Nat) (s : State) : (s.fillSome n).retirement = s.retirement := by
  induction n generalizing s with
  | zero => rfl
  | succ n ih =>
    unfold State.fillSome
    split
    · rw [ih, State.fillOne, State.create_retirement (by simp [fillEntry])]
      rfl
    · rfl

theorem State.fillIssue_of_notReady {s : State} (h : s.fillReady = none) : s.fillIssue = s := by
  simp [State.fillIssue, State.fillSome_of_notReady h]

/-- Settles O34: the rows without effect, then the entries that are created. -/
theorem fillIssueCreatesEntriesFromTheCursor : Obligations.FillIssueCreatesEntriesFromTheCursor := by
  intro s
  have row : exec .fillIssue s = .next s.fillIssue := rfl
  refine ⟨?_, fun f hf stopped => ?_, fun f l r notReady hs hf hp hc hr hl => ?_⟩
  · rintro (ready | idle)
    · rw [row, State.fillIssue, if_pos ready]
    · rw [row, State.fillIssue_of_notReady (by simp [State.fillReady, idle])]
  · rw [row, State.fillIssue_of_notReady]
    unfold State.fillReady
    (repeat' split) <;> simp_all
  · intro left created lines ahead
    obtain ⟨js, filled⟩ := State.fillSome_filled hs (left := left) hf hp (by simpa [left] using hc) hr
      (fun _ => by simp only [left]; omega) 6
    have issues : s.fillIssue = s.fillSome 6 := by simp [State.fillIssue, notReady]
    have count : min (min 6 (6 - s.occupancy .patrol)) left = created := by
      simp only [created]
      omega
    rw [count] at filled
    rw [row, issues]
    exact ⟨_, js, rfl, filled.length, filled.order, filled.created, filled.kept, filled.memory, filled.patrol, by simp⟩

end Sys2Proof.Machine
end

section
/-! SUPPORT. The law of the retirement unit (O58) as its parts: the law over the tables, and the tracker entry of the copy
in progress; and the operations that leave both alone. -/

namespace Sys2Proof.Machine

/-! ### The law as its parts -/

/-- The law of the tables: with a spare area, and without one. -/
structure Retirement.Lawful (r : Retirement) : Prop where
  area : ∀ a, r.area = some a → RetireLaw a r.queue r.map r.copy
  noArea : r.area = none → r.queue = [] ∧ r.map = [] ∧ r.copy = none

/-- R139, R144: the copy in progress is a COPY entry that has not expired, which waits for its line exactly while no map
entry is COPYING. -/
def CopyHeld (table : EntryTable) (copy : Option CopyJob) (map : List MapEntry) : Prop :=
  ∀ j, copy = some j → ∃ i e, table i = some e ∧ e.origin = .copy ∧ e.phase ≠ .expired ∧ e.line = j.line
    ∧ (e.phase = .waitingLine ↔ ∀ m ∈ map, m.state = .active)

theorem Retirement.Lawful.of_area {r : Retirement} {a : SpareArea} (ha : r.area = some a)
    (h : RetireLaw a r.queue r.map r.copy) : r.Lawful :=
  ⟨fun b hb => by rwa [← Option.some.inj (ha.symm.trans hb)], fun hn => by simp [ha] at hn⟩

/-- R130: what is being copied is copied to a spare area. -/
theorem Retirement.Lawful.area_of_copy {r : Retirement} (h : r.Lawful) {job : CopyJob} (hj : r.copy = some job) :
    ∃ a, r.area = some a ∧ RetireLaw a r.queue r.map (some job) := by
  cases ha : r.area with
  | none =>
    have := h.noArea ha
    simp [hj] at this
  | some a => exact ⟨a, rfl, hj ▸ h.area a ha⟩

theorem jobs_lines (queue : List RetireEntry) (copy : Option CopyJob) :
    (jobs queue copy).map (·.1) = queue.map (·.line) ++ copy.toList.map (·.line) := by
  simp [jobs, Function.comp_def]

theorem jobs_lines_nodup {queue : List RetireEntry} {copy : Option CopyJob} :
    ((jobs queue copy).map (·.1)).Nodup ↔
      (queue.map (·.line)).Nodup ∧ ∀ j, copy = some j → j.line ∉ queue.map (·.line) := by
  cases copy with
  | none => simp [jobs, Function.comp_def]
  | some j =>
    rw [((jobs_copy queue j).map _).nodup_iff]
    simp [jobs, Function.comp_def, and_comm]

/-- The law of the retirement unit, part by part. -/
theorem State.retirementSound_iff {s : State} : s.RetirementSound ↔
    s.retirement.Lawful ∧ CopyHeld s.entry s.retirement.copy s.retirement.map := by
  constructor
  · intro h
    refine ⟨⟨fun a ha => ?_, h.noArea⟩, h.held⟩
    obtain ⟨mapped, queued, copied⟩ := h.outside a ha
    refine ⟨h.area a ha, h.queue.length, jobs_lines_nodup.2 ⟨h.queue.nodup, h.queue.copy⟩,
      ⟨fun i => h.inUse a i ha, fun i => ?_, h.mapSpares, ?_⟩, h.queue.ascending,
      fun m hm => ⟨h.active m hm, h.copying m hm⟩, fun l hl => ?_⟩
    · rw [jobs_spares]
      exact h.reserved a i ha
    · rw [jobs_spares]
      exact h.promised
    · rw [jobs_lines, List.mem_append] at hl
      obtain hl | hl | hl := hl
      · obtain ⟨m, hm, rfl⟩ := List.mem_map.1 hl
        exact mapped m hm
      · obtain ⟨q, hq, rfl⟩ := List.mem_map.1 hl
        exact queued q hq
      · obtain ⟨j, hj, rfl⟩ := List.mem_map.1 hl
        exact copied j (Option.mem_toList.1 hj)
  · rintro ⟨law, held⟩
    cases ha : s.retirement.area with
    | none =>
      obtain ⟨queue, map, copy⟩ := law.noArea ha
      exact .of_empty ha queue map copy
    | some a =>
      have h := law.area a ha
      obtain ⟨nodup, apart⟩ := jobs_lines_nodup.1 h.lines
      have promised := h.spares.promised
      have reserved := h.spares.reserved
      rw [jobs_spares] at promised reserved
      have same {b : SpareArea} (hb : s.retirement.area = some b) : a = b := Option.some.inj (ha.symm.trans hb)
      refine ⟨⟨h.room, nodup, apart, h.ascending⟩, fun b hb => same hb ▸ h.size, law.noArea,
        fun b i hb => same hb ▸ h.spares.inUse i, h.spares.mapSpares, fun b i hb => same hb ▸ reserved i, promised,
        h.length_map, fun b hb => ?_, fun m hm => (h.fits m hm).active, fun m hm => (h.fits m hm).copying, held⟩
      obtain rfl := same hb
      refine ⟨fun m hm => h.outside _ (.inl (List.mem_map_of_mem hm)), fun q hq => h.outside _ (.inr ?_),
        fun j hj => h.outside _ (.inr ?_)⟩
      · rw [jobs_lines]
        exact List.mem_append_left _ (List.mem_map_of_mem hq)
      · simp [jobs_lines, hj]

/-! ### Operations on the tables -/

/-- An operation on the tables keeps their law, the line that is being copied, and whether a map entry is COPYING. -/
structure Retirement.Keeps (r r' : Retirement) : Prop where
  lawful : r.Lawful → r'.Lawful
  copy : r'.copy.map (·.line) = r.copy.map (·.line)
  active : (∀ m ∈ r'.map, m.state = .active) ↔ ∀ m ∈ r.map, m.state = .active

namespace Retirement.Keeps
variable {r r' r'' : Retirement}

theorem of_eq (h : r' = r) : r.Keeps r' := h ▸ ⟨id, rfl, .rfl⟩

theorem trans (h : r.Keeps r') (k : r'.Keeps r'') : r.Keeps r'' :=
  ⟨fun law => k.lawful (h.lawful law), k.copy.trans h.copy, k.active.trans h.active⟩

/-- An operation on the tables where a spare area is defined, before and after. -/
theorem of_area {a a' : SpareArea} (ha : r.area = some a) (ha' : r'.area = some a')
    (law : RetireLaw a r.queue r.map r.copy → RetireLaw a' r'.queue r'.map r'.copy)
    (copy : r'.copy.map (·.line) = r.copy.map (·.line))
    (active : (∀ m ∈ r'.map, m.state = .active) ↔ ∀ m ∈ r.map, m.state = .active) : r.Keeps r' :=
  ⟨fun h => .of_area ha' (law (h.area a ha)), copy, active⟩

end Retirement.Keeps

/-! ### Operations that leave the unit and its copy alone -/

/-- The tracker entry of the copy in progress stays: with its line, and waiting for its line or not as before. -/
def State.CopyStays (s t : State) : Prop :=
  ∀ i e, s.entry i = some e → e.origin = .copy → e.phase ≠ .expired → ∃ e', t.entry i = some e' ∧ e'.origin = .copy
    ∧ e'.phase ≠ .expired ∧ e'.line = e.line ∧ (e'.phase = .waitingLine ↔ e.phase = .waitingLine)

theorem State.CopyStays.of_tracker {s t : State} (h : t.tracker = s.tracker) : s.CopyStays t :=
  fun _ e he ho hp => ⟨e, by rwa [State.entry_of_tracker h], ho, hp, rfl, .rfl⟩

theorem State.CopyStays.trans {s t u : State} (h : s.CopyStays t) (k : t.CopyStays u) : s.CopyStays u := by
  intro i e he ho hp
  obtain ⟨e₁, he₁, ho₁, hp₁, hl₁, hw₁⟩ := h i e he ho hp
  obtain ⟨e₂, he₂, ho₂, hp₂, hl₂, hw₂⟩ := k i e₁ he₁ ho₁ hp₁
  exact ⟨e₂, he₂, ho₂, hp₂, hl₂.trans hl₁, hw₂.trans hw₁⟩

/-- One entry of the tracker changes that is no COPY, or has expired. -/
theorem State.CopyStays.of_other {s t : State} {i : Fin 64} (h : ∀ j, j ≠ i → t.entry j = s.entry j)
    (hi : ∀ e, s.entry i = some e → e.origin = .copy → e.phase = .expired) : s.CopyStays t := by
  intro j e he ho hp
  refine ⟨e, ?_, ho, hp, rfl, .rfl⟩
  rwa [h j]
  rintro rfl
  exact hp (hi e he ho)

/-- One entry of the tracker goes on from one phase past WAITING_LINE to another. -/
theorem State.CopyStays.of_past {s t : State} {i : Fin 64} {e e' : Entry} (h : ∀ j, j ≠ i → t.entry j = s.entry j)
    (he : s.entry i = some e) (he' : t.entry i = some e') (same : e'.origin = e.origin ∧ e'.line = e.line)
    (hp : e.phase ≠ .waitingLine) (hp' : e'.phase ≠ .waitingLine ∧ e'.phase ≠ .expired) : s.CopyStays t := by
  obtain ⟨origin, line⟩ := same
  intro j x hx ho hexp
  by_cases hj : j = i
  · subst hj
    obtain rfl := Option.some.inj (he.symm.trans hx)
    exact ⟨e', he', origin.trans ho, hp'.2, line, iff_of_false hp'.1 hp⟩
  · exact ⟨x, by rwa [h j hj], ho, hexp, rfl, .rfl⟩

/-- An operation leaves the retirement unit alone, and the entry of its copy in place. -/
structure State.KeepsCopy (s t : State) : Prop where
  retirement : t.retirement = s.retirement
  stays : s.CopyStays t

namespace State.KeepsCopy

theorem of_fields {s t : State} (h : t.tracker = s.tracker ∧ t.retirement = s.retirement) : s.KeepsCopy t :=
  ⟨h.2, .of_tracker h.1⟩

theorem refl (s : State) : s.KeepsCopy s := of_fields ⟨rfl, rfl⟩

theorem trans {s t u : State} (h : s.KeepsCopy t) (k : t.KeepsCopy u) : s.KeepsCopy u :=
  ⟨k.retirement.trans h.retirement, h.stays.trans k.stays⟩

theorem foldl {α : Type} {f : State → α → State} (h : ∀ (t : State) (x : α), t.KeepsCopy (f t x)) (l : List α) (s : State) :
    s.KeepsCopy (l.foldl f s) := by
  induction l generalizing s with
  | nil => exact refl s
  | cons x xs ih => exact (h s x).trans (ih _)

end State.KeepsCopy

/-! ### What the law follows from -/

namespace State.RetirementSound
variable {s t : State} (hs : s.RetirementSound)
include hs

theorem lawful : s.retirement.Lawful := (retirementSound_iff.1 hs).1

theorem copyHeld : CopyHeld s.entry s.retirement.copy s.retirement.map := (retirementSound_iff.1 hs).2

/-- The tables change within their law, and the tracker entry of the copy stays. -/
theorem of_tables (stays : s.CopyStays t) (tables : s.retirement.Keeps t.retirement) : t.RetirementSound := by
  refine retirementSound_iff.2 ⟨tables.lawful hs.lawful, fun j hj => ?_⟩
  obtain ⟨j₀, hj₀, line⟩ : ∃ j₀, s.retirement.copy = some j₀ ∧ j₀.line = j.line := by
    have copy := tables.copy
    rw [hj] at copy
    exact Option.map_eq_some_iff.1 copy.symm
  obtain ⟨i, e, he, ho, hp, hl, hw⟩ := hs.copyHeld j₀ hj₀
  obtain ⟨e', he', ho', hp', hl', hw'⟩ := stays i e he ho hp
  exact ⟨i, e', he', ho', hp', (hl'.trans hl).trans line, by rw [hw', hw, tables.active]⟩

/-- An operation that leaves the unit and its copy alone keeps the law. -/
theorem of_keeps (h : s.KeepsCopy t) : t.RetirementSound :=
  hs.of_tables h.stays (.of_eq h.retirement)

omit hs in
/-- With no copy in progress the law is that of the tables. -/
theorem of_noCopy (law : t.retirement.Lawful) (h : t.retirement.copy = none) : t.RetirementSound :=
  retirementSound_iff.2 ⟨law, fun j hj => by simp [h] at hj⟩

/-- R40, R139: a COPY entry that has not expired is that of the copy in progress. -/
theorem liveCopy (ht : s.TrackerSound) {i : Fin 64} {e : Entry} (he : s.entry i = some e) (ho : e.origin = .copy)
    (hp : e.phase ≠ .expired) : ∃ job, s.retirement.copy = some job ∧ e.line = job.line
      ∧ (e.phase = .waitingLine ↔ ∀ m ∈ s.retirement.map, m.state = .active) := by
  obtain ⟨job, hj, line⟩ := ht.copy i e he ho hp
  obtain ⟨i', e', he', ho', -, -, hw⟩ := hs.copyHeld job hj
  obtain rfl := eq_of_copies (ht.pools .copy) he ho he' ho'
  obtain rfl := Option.some.inj (he.symm.trans he')
  exact ⟨job, hj, line.symm, hw⟩

/-- R143: while the copy pool is empty no copy is in progress. -/
theorem noCopy_of_noEntry (h : ∀ i e, s.entry i = some e → e.origin = .copy → e.phase = .expired) :
    s.retirement.copy = none := by
  by_contra hc
  obtain ⟨j, hj⟩ := Option.ne_none_iff_exists'.1 hc
  obtain ⟨i, e, he, ho, hp, -⟩ := hs.copyHeld j hj
  exact hp (h i e he ho)

end State.RetirementSound

end Sys2Proof.Machine
end

section
/-! SUPPORT. Operations that leave the retirement unit and its copy alone (O58): those of the patrol, of the requesters and
of the issue arbiter. -/

namespace Sys2Proof.Machine

theorem State.entry_issue (i j : Fin 64) (e : Entry) (s : State) : (s.issue i e).entry j =
    if i = j then some { e with phase := if e.writing then .awaitingDone else .awaitingData } else s.entry j :=
  State.entry_setEntry i j _ s

theorem Entry.origin_of_isRequester {e : Entry} (h : e.origin.isRequester = true) : e.origin ≠ .copy := by
  intro ho
  simp [ho, Origin.isRequester] at h

namespace State.KeepsCopy

/-! ### The patrol -/

/-- R44: a new entry that is no COPY. -/
theorem create {s : State} {i : Fin 64} {e : Entry} {p : Pool} (ho : e.origin ≠ .copy) (slot : s.slotFor p = some i) :
    s.KeepsCopy (s.create i e) := by
  obtain ⟨-, free, -⟩ := State.slotFor_eq_some.1 slot
  exact ⟨State.create_retirement ho,
    .of_other (fun j hj => by rw [State.entry_create ho, if_neg hj.symm]) (by simp [free])⟩

theorem repairService (s : State) : s.KeepsCopy s.repairService := by
  unfold State.repairService
  split
  · rename_i l rest slot _ hslot _
    have taken : s.KeepsCopy { s with patrol := { s.patrol with repairQueue := rest } } := of_fields ⟨rfl, rfl⟩
    dsimp only
    split
    · exact taken.trans (create (by simp [repairEntry]) hslot)
    · exact taken
  · exact refl s

theorem serveRepairsFor (n : Nat) (s : State) : s.KeepsCopy (s.serveRepairsFor n) := by
  induction n generalizing s with
  | zero => exact refl s
  | succ n ih =>
    unfold State.serveRepairsFor
    split
    · exact (repairService s).trans (ih _)
    · exact refl s

theorem offerAndServe (s : State) (l : LineNo) : s.KeepsCopy (s.offerAndServe l) :=
  (of_fields (t := s.offerRepair l) (by simp)).trans (serveRepairsFor _ _)

theorem fillSome (n : Nat) (s : State) : s.KeepsCopy (s.fillSome n) := by
  induction n generalizing s with
  | zero => exact refl s
  | succ n ih =>
    unfold State.fillSome
    split
    · rename_i i f l hr
      have slot : s.slotFor .patrol = some i := by
        unfold State.fillReady at hr
        (repeat' split at hr) <;> simp_all
      have moved (g : Fill) : s.KeepsCopy (s.setFill (some g)) := of_fields ⟨rfl, rfl⟩
      exact ((moved _).trans (create (by simp [fillEntry]) slot)).trans (ih _)
    · exact refl s

theorem fillIssue (s : State) : s.KeepsCopy s.fillIssue := by
  unfold State.fillIssue
  split
  · exact refl s
  · exact fillSome _ s

theorem startFill (i : Fin 32) (r : Region) (s : State) : s.KeepsCopy (s.startFill i r) := by
  refine .trans (of_fields ?_) (fillIssue _)
  exact ⟨rfl, rfl⟩

theorem scanBurst (k : Fin 32) (n : Nat) (s : State) : s.KeepsCopy (s.scanBurst k n) := by
  induction n generalizing s with
  | zero => exact refl s
  | succ n ih =>
    unfold State.scanBurst
    split
    · rename_i r slot _ hslot
      have created (l : LineNo) : s.KeepsCopy (s.create slot (scanEntry k l)) := create (by simp [scanEntry]) hslot
      have modified (l : LineNo) (f : Region → Region) :
          s.KeepsCopy ((s.create slot (scanEntry k l)).modifyRegion k f) := (created l).trans (of_fields (by simp))
      dsimp only
      (repeat' split)
      · exact (modified r.cursor fun r => { r with cursor := r.base, passes := r.passes + 1 }).trans (of_fields ⟨rfl, rfl⟩)
      · exact modified _ _
      · exact (modified _ _).trans (ih _)
    · exact refl s

theorem slotExpiry (s : State) : s.KeepsCopy s.slotExpiry := by
  have next : s.KeepsCopy s.nextSlot := of_fields ⟨rfl, rfl⟩
  unfold State.slotExpiry State.serveSlot
  (repeat' split)
  · exact next
  · rename_i k _
    have pointed : s.KeepsCopy { s.nextSlot with patrol := { s.nextSlot.patrol with pointer := k } } :=
      next.trans (of_fields ⟨rfl, rfl⟩)
    exact pointed.trans (scanBurst k _ _)
  · exact next
  · exact refl s

/-! ### The requesters -/

theorem acceptance (s : State) : s.KeepsCopy s.acceptance := by
  unfold State.acceptance
  split
  · rename_i q rest i _ slot
    have decided : (s.takeRequest rest).KeepsCopy ((s.takeRequest rest).decideRequest q i) := by
      unfold State.decideRequest
      (repeat' split)
      case h_5 => exact create (by simp [Request.entry]) (p := .requester) slot
      all_goals exact of_fields (by simp)
    have taken : s.KeepsCopy (s.takeRequest rest) := of_fields ⟨rfl, rfl⟩
    exact (taken.trans decided).trans (of_fields (by simp))
  · exact refl s

/-- R64, R65: the reset of an entry leaves every COPY alone. -/
theorem resetEntry (s : State) (i : Fin 64) : s.KeepsCopy (s.resetEntry i) := by
  refine ⟨by simp, ?_⟩
  have other {e : Entry} (he : s.entry i = some e) (hr : e.origin.isRequester = true) :
      ∀ x, s.entry i = some x → x.origin = .copy → x.phase = .expired := fun x hx ho => by
    obtain rfl := Option.some.inj (he.symm.trans hx)
    exact absurd ho (Entry.origin_of_isRequester hr)
  unfold State.resetEntry
  split
  · exact .of_tracker rfl
  · rename_i e he
    split
    · rename_i ends
      exact .of_other (fun j hj => by rw [State.entry_release, if_neg hj.symm]) (other he (Bool.and_eq_true_iff.1 ends).1)
    · split
      · rename_i marks
        exact .of_other (fun j hj => by rw [State.entry_setEntry, if_neg hj.symm])
          (other he (Bool.and_eq_true_iff.1 marks).1)
      · exact .of_tracker rfl

theorem requesterFall (w : Reason) (s : State) : s.KeepsCopy (s.requesterFall w) := by
  unfold State.requesterFall
  split
  · exact refl s
  · have fallen : s.KeepsCopy { s with port := s.port.fall } := of_fields ⟨rfl, rfl⟩
    have reset : s.KeepsCopy (State.resetRequesters { s with port := s.port.fall }) :=
      (fallen.trans (foldl resetEntry _ _)).trans (foldl offerAndServe _ _)
    exact reset.trans (of_fields ⟨rfl, rfl⟩)

theorem violation (w : Reason) (s : State) : s.KeepsCopy (s.violation w) := by
  unfold State.violation
  split
  · exact refl s
  · have raised : s.KeepsCopy (s.raise { kind := .protocolError, reason := some w }) := of_fields ⟨rfl, rfl⟩
    exact raised.trans (requesterFall _ _)

theorem requestArrives (q : Request) (s : State) : s.KeepsCopy (s.requestArrives q) := by
  unfold State.requestArrives
  (repeat' split)
  · exact refl s
  · exact of_fields ⟨rfl, rfl⟩
  · exact violation _ s

theorem commandArrives (c : Command) (s : State) : s.KeepsCopy (s.commandArrives c) := by
  unfold State.commandArrives
  (repeat' split)
  · exact refl s
  · exact of_fields ⟨rfl, rfl⟩
  · exact violation _ s

theorem requesterBad (k : Byte) (n : Nat) (s : State) : s.KeepsCopy (s.requesterBad k n) := by
  unfold State.requesterBad
  (repeat' split)
  · exact of_fields (by simp)
  · exact refl s
  · exact refl s
  · exact violation _ s
  · exact violation _ s

/-! ### The issue arbiter -/

/-- R77: a COPY that is issued goes on past its wait for its line. -/
theorem issueGrant {s : State} (ht : s.TrackerSound) : s.KeepsCopy s.issueGrant := by
  refine ⟨by simp, ?_⟩
  unfold State.issueGrant
  split
  · split
    · rename_i i hg
      split
      · rename_i e he
        obtain ⟨e', he', hp⟩ := (ht.waiting i).1 (State.granted_waits hg)
        obtain rfl : e = e' := Option.some.inj (he.symm.trans he')
        refine .of_past (i := i) (e' := { e with phase := if e.writing then .awaitingDone else .awaitingData })
          (fun j hj => by rw [State.entry_issue, if_neg hj.symm]) he (by rw [State.entry_issue, if_pos rfl]) ⟨rfl, rfl⟩
          (by simp [hp]) ?_
        cases e.writing <;> simp
      · exact .of_tracker rfl
    · exact .of_tracker rfl
  · exact .of_tracker rfl

end State.KeepsCopy

end Sys2Proof.Machine
end

section
/-! SUPPORT. Retirements that are asked for, cancelled or loaded, and the spare area at a memory-link up (O58): what they
do to the tables of the retirement unit. -/

namespace Sys2Proof.Machine

/-! ### A retirement that is asked for -/

theorem State.retireCheck_eq_accepted {s : State} {l : LineNo} {i : Nat} (h : s.retireCheck l = .accepted i) :
    ∃ a, s.retirement.area = some a ∧ a.contains l = false ∧ l ∉ (jobs s.retirement.queue s.retirement.copy).map (·.1)
      ∧ s.retirement.queue.length < 8 ∧ a.spares[i]? = some .free := by
  cases ha : s.retirement.area with
  | none => simp [State.retireCheck_of_noArea ha] at h
  | some a =>
    rw [State.retireCheck_of_area ha] at h
    split at h
    · cases h
    split at h
    · cases h
    rename_i out
    split at h
    · cases h
    rename_i pending
    split at h
    · cases h
    rename_i room
    cases hf : a.lowestFree with
    | none => simp [hf] at h
    | some k =>
      rw [hf, Option.elim_some] at h
      split at h
      · cases h
      cases h
      refine ⟨a, rfl, by simpa using out, fun hl => pending (Retirement.pending_iff.2 ?_), not_le.1 room,
        (SpareArea.lowestFree_eq_some.1 hf).1⟩
      rw [jobs_lines, List.mem_append] at hl
      refine hl.imp List.mem_map.1 fun hl => ?_
      obtain ⟨j, hj, rfl⟩ := List.mem_map.1 hl
      exact ⟨j, Option.mem_toList.1 hj, rfl⟩

/-- R139: the entry of a line of the retire queue, beside those of the other lines. -/
theorem RetireEntry.perm_others {queue : List RetireEntry} (h : (queue.map (·.line)).Nodup) {q : RetireEntry}
    (hq : q ∈ queue) : queue.Perm (q :: queue.filter fun x => x.line ≠ q.line) := by
  obtain ⟨as, bs, rfl⟩ := List.append_of_mem hq
  have apart := (List.perm_middle.map RetireEntry.line).nodup_iff.1 h
  obtain ⟨others, -⟩ := List.nodup_cons.1 apart
  have kept : ∀ x ∈ as ++ bs, x.line ≠ q.line := fun x hx hl => others (hl ▸ List.mem_map_of_mem hx)
  have left : (as ++ q :: bs).filter (fun x => x.line ≠ q.line) = as ++ bs := by
    rw [List.filter_append, List.filter_cons_of_neg (by simp), ← List.filter_append]
    exact List.filter_eq_self.2 fun x hx => decide_eq_true (kept x hx)
  rw [left]
  exact List.perm_middle

theorem insertMap_all_active {m : MapEntry} (h : m.state = .active) (map : List MapEntry) :
    (∀ x ∈ insertMap m map, x.state = .active) ↔ ∀ x ∈ map, x.state = .active := by
  simp [(insertMap_perm m map).mem_iff, h]

namespace Retirement.Keeps

/-- R140: an accepted retirement. -/
theorem enqueue {s : State} {l : LineNo} {i : Nat} (h : s.retireCheck l = .accepted i) (o : RetireOrigin) :
    s.retirement.Keeps (s.enqueueRetire l o i).retirement := by
  obtain ⟨a, ha, out, fresh, room, free⟩ := State.retireCheck_eq_accepted h
  rw [State.enqueueRetire_of_area ha]
  exact .of_area ha rfl (fun law => law.enqueue free room fresh out o) rfl .rfl

/-- R124: the retirement unit's answer to the history table. -/
theorem autoAnswer (i : Fin 128) (e : HistoryEntry) (s : State) :
    s.retirement.Keeps (s.autoAnswer i e (s.retireCheck e.line)).retirement := by
  cases h : s.retireCheck e.line with
  | accepted spare => simpa [State.autoAnswer] using enqueue h .auto
  | _ => exact .of_eq (by simp [State.autoAnswer])

theorem thresholdTest (i : Fin 128) (s : State) : s.retirement.Keeps (s.thresholdTest i).retirement := by
  unfold State.thresholdTest
  (repeat' split)
  · exact .of_eq rfl
  · exact .of_eq rfl
  · exact autoAnswer i _ s
  · exact .of_eq rfl

theorem reportWriteBack (l : LineNo) (r : Fin 32) (p : Fin 72) (o : WriteBackOrigin) (s : State) :
    s.retirement.Keeps (s.reportWriteBack l r p o).retirement := by
  unfold State.reportWriteBack
  (repeat' split)
  · exact .of_eq rfl
  · exact .of_eq rfl
  · exact .trans (.of_eq (by simp)) (thresholdTest _ _)
  · exact .of_eq rfl
  · exact .trans (.of_eq (by simp)) (thresholdTest _ _)

theorem reportMerge (e : Entry) (s : State) : s.retirement.Keeps (s.reportMerge e).retirement := by
  unfold State.reportMerge
  split
  · exact reportWriteBack _ _ _ _ s
  all_goals exact .of_eq rfl

theorem writeDone (i : Fin 64) (e : Entry) (t : Ticket) (s : State) :
    s.retirement.Keeps (s.writeDone i e t).retirement := by
  have answered : s.retirement.Keeps (s.respondEntry t .ok false zeroData).retirement := .of_eq (by simp)
  exact (answered.trans (reportMerge e _)).trans (.of_eq (by simp [State.writeDone]))

theorem patrolWritten (i : Fin 64) (e : Entry) (s : State) : s.retirement.Keeps (s.patrolWritten i e).retirement := by
  unfold State.patrolWritten
  dsimp only
  split
  · rename_i p _
    have noted : s.retirement.Keeps (if s.reportsCorrections (e.region.getD 0) then
        s.raise { kind := .repaired, line := some e.line, physical := e.physical, region := e.region
                  origin := some e.origin.event, symbol := some p } else s).retirement := .of_eq (by split <;> simp)
    have reported := noted.trans (reportWriteBack e.line (e.region.getD 0) p e.origin.writeBack _)
    exact reported.trans (.of_eq (by simp))
  all_goals exact .of_eq (by simp)

/-! ### The management commands -/

theorem retireLine (requester tag : Byte) (b : ArgBlock) (s : State) :
    s.retirement.Keeps (retireLine requester tag b s).state.retirement := by
  unfold Machine.retireLine
  dsimp only
  split
  case h_8 i h => exact enqueue h _
  all_goals exact .of_eq rfl

theorem spareMark (b : ArgBlock) (s : State) : s.retirement.Keeps (spareMark b s).state.retirement := by
  unfold Machine.spareMark
  dsimp only
  split
  · exact .of_eq rfl
  · rename_i a ha
    (repeat' split)
    · exact .of_eq rfl
    · exact .of_eq rfl
    · rename_i x hx free
      rw [not_not.1 free] at hx
      show s.retirement.Keeps (s.setSpare (argNat b 4 2) .defective).retirement
      rw [State.setSpare_of_area ha]
      exact .of_area ha rfl (fun law => law.condemn hx) rfl .rfl

/-- R141: a queued retirement is cancelled. -/
theorem retireCancel (b : ArgBlock) (s : State) : s.retirement.Keeps (retireCancel b s).state.retirement := by
  unfold Machine.retireCancel
  dsimp only
  split
  · exact .of_eq rfl
  · rename_i area
    split
    · rename_i q hq
      obtain ⟨a, ha⟩ : ∃ a, s.retirement.area = some a := by simpa [Option.ne_none_iff_exists'] using area
      obtain ⟨hm, hl⟩ : q ∈ s.retirement.queue ∧ q.line = argLine b 12 :=
        ⟨List.mem_of_find?_eq_some hq, by simpa using List.find?_some hq⟩
      obtain ⟨cancelled, -⟩ := State.cancelRetire_effect ha q
      show s.retirement.Keeps (s.cancelRetire q).retirement
      rw [cancelled]
      refine .of_area ha rfl (fun law => law.dequeue ?_) rfl .rfl
      exact RetireEntry.perm_others (jobs_lines_nodup.1 law.lines).1 hm
    · split <;> exact .of_eq rfl

/-- R142: a retirement is loaded. -/
theorem retireLoad (b : ArgBlock) (s : State) : s.retirement.Keeps (retireLoad b s).state.retirement := by
  cases ha : s.retirement.area with
  | none => exact .of_eq (by simp [Machine.retireLoad, ha, refuse])
  | some a =>
    rw [retireLoad_of_area ha]
    split
    · exact .of_eq rfl
    rename_i bounds
    split
    · exact .of_eq rfl
    rename_i held
    split
    · exact .of_eq rfl
    rename_i ready
    simp only [not_or, not_not] at bounds held ready
    obtain ⟨-, -, out⟩ := bounds
    obtain ⟨mapped, -⟩ := held
    show s.retirement.Keeps (s.loadRetired (argLine b 12) (argNat b 4 2)).retirement
    rw [State.loadRetired_of_area ha]
    refine .of_area ha rfl (fun law => law.load ready.1 rfl rfl rfl ?_ (by simpa using out)) rfl ?_
    · exact Retirement.entry_eq_none.1 (by simpa using mapped)
    · exact insertMap_all_active rfl _

/-! ### The memory link goes UP -/

/-- R136: the spare area is compared with the capacity; beyond it every queued retirement fails. -/
theorem clipSpares (n : Nat) (s : State) : s.retirement.Keeps (s.clipSpares n).retirement := by
  cases ha : s.retirement.area with
  | none => exact .of_eq (by rw [State.clipSpares_of_none ha])
  | some a =>
    by_cases hn : n < a.base.toNat + a.spares.length
    · rw [State.clipSpares_of_beyond ha hn, (State.failQueued_foldl _ _).1]
      exact .of_area ha (by simp [State.raise, ha]) (fun law => law.dequeueAll) rfl .rfl
    · rw [State.clipSpares_of_within ha hn]
      exact .of_area ha ha id rfl .rfl

theorem memoryUp (n : Byte) (k : BitVec 64) (s : State) : s.retirement.Keeps (s.memoryUp n k).retirement :=
  .trans (.of_eq (by simp)) (clipSpares k.toNat _)

end Retirement.Keeps

end Sys2Proof.Machine
end

section
/-! SUPPORT. The copy keeps the law of the retirement unit (O58): its start, its ownership, its success and its failure. -/

namespace Sys2Proof.Machine

/-! ### Ownership -/

/-- R144: the COPY that becomes owner prepares the map, and waits for its line no more. -/
theorem State.becomeOwner_retirementSound {s : State} {i : Fin 64} {e : Entry} {job : CopyJob} (law : s.retirement.Lawful)
    (he : s.entry i = some e) (ho : e.origin = .copy) (hj : s.retirement.copy = some job) (hl : e.line = job.line)
    (active : ∀ m ∈ s.retirement.map, m.state = .active) : (s.becomeOwner i).RetirementSound := by
  obtain ⟨a, ha, law⟩ := law.area_of_copy hj
  obtain ⟨prepared, copying⟩ := law.prepare active
  have owner := State.becomeOwner_of_copy he ho hj
  have tables : (s.becomeOwner i).retirement = { s.retirement with map := s.retirement.preparedMap job } := by
    rw [owner]
    exact State.prepareMap_retirement job s
  have entry : (s.becomeOwner i).entry i = some (s.owned e) := by
    rw [owner, State.entry_wait, if_pos rfl]
    rfl
  refine retirementSound_iff.2 ⟨?_, fun j hj' => ?_⟩
  · rw [tables]
    exact .of_area ha (hj ▸ prepared)
  · rw [tables] at hj' ⊢
    obtain rfl := Option.some.inj (hj.symm.trans hj')
    refine ⟨i, s.owned e, entry, ho, by simp [State.owned], hl, ?_⟩
    simpa [State.owned] using copying

theorem State.KeepsCopy.becomeOwner {s : State} {i : Fin 64} {e : Entry} (he : s.entry i = some e)
    (ho : e.origin ≠ .copy) : s.KeepsCopy (s.becomeOwner i) := by
  have other : ∀ x, s.entry i = some x → x.origin ≠ .copy := fun x hx => by
    obtain rfl := Option.some.inj (he.symm.trans hx)
    exact ho
  refine ⟨State.becomeOwner_retirement other, ?_⟩
  rw [State.becomeOwner_of_other he ho]
  exact .of_other (fun j hj => by rw [State.entry_wait, if_neg hj.symm]) fun x hx hc => absurd hc (other x hx)

/-- R143: a COPY entry is created for a copy that has just started. -/
theorem State.create_retirementSound {s : State} {i : Fin 64} {e : Entry} {job : CopyJob} (law : s.retirement.Lawful)
    (ho : e.origin = .copy) (hj : s.retirement.copy = some job) (hl : e.line = job.line)
    (active : ∀ m ∈ s.retirement.map, m.state = .active) : (s.create i e).RetirementSound := by
  have he : (s.append i e).entry i = some { e with phase := .waitingLine } := by rw [State.entry_append, if_pos rfl]
  rw [State.create_eq]
  split
  · exact State.becomeOwner_retirementSound law he ho hj hl active
  · refine retirementSound_iff.2 ⟨law, fun j hj' => ⟨i, _, he, ho, by simp, ?_, iff_of_true rfl active⟩⟩
    obtain rfl := Option.some.inj (hj.symm.trans hj')
    exact hl

/-! ### The end of a copy -/

namespace Retirement.Lawful
variable {s : State} {job : CopyJob} (law : s.retirement.Lawful) (hj : s.retirement.copy = some job)
include law hj

/-- R146: the copy succeeds. -/
theorem copySucceed (copying : ¬∀ m ∈ s.retirement.map, m.state = .active) (g : Option (Fin 32)) :
    (s.copySucceed g).retirement.Lawful ∧ (s.copySucceed g).retirement.copy = none := by
  obtain ⟨a, ha, law⟩ := law.area_of_copy hj
  push Not at copying
  obtain ⟨m, hm, hc⟩ := copying
  have hc := MapEntry.state_ne_active.1 hc
  have found : s.retirement.entry job.line = some m :=
    (law.copying_split hm hc).1 ▸ Retirement.entry_of_mem law.ascending hm
  rw [State.copySucceed_retirement hj ha found]
  exact ⟨.of_area rfl (law.succeed hm hc (fun _ => rfl) (fun _ => rfl) (fun _ => rfl) fun _ => rfl), rfl⟩

/-- R147: the copy fails: its map entry goes exactly if it had become owner. -/
theorem copyFail {owner : Bool} (copying : owner = true ↔ ¬∀ m ∈ s.retirement.map, m.state = .active) (issued : Bool)
    (why : Reason) (g : Option (Fin 32)) : (s.copyFail owner issued why g).retirement.Lawful
      ∧ (s.copyFail owner issued why g).retirement.copy = none := by
  obtain ⟨a, ha, law⟩ := law.area_of_copy hj
  have tables : (s.copyFail owner issued why g).retirement
      = { (s.copyUndone owner issued job).retirement with copy := none } := by
    rw [State.copyFail_of_job hj]
    simp [State.endCopy]
  have role : (if issued then SpareState.defective else .free) ≠ .inUse
      ∧ (if issued then SpareState.defective else .free) ≠ .reserved := by cases issued <;> simp
  rw [tables, State.copyUndone_retirement ha]
  refine ⟨.of_area rfl ?_, rfl⟩
  cases owner with
  | true =>
    have copying := copying.1 rfl
    push Not at copying
    obtain ⟨m, hm, hc⟩ := copying
    exact law.fail hm (MapEntry.state_ne_active.1 hc) role
  | false => exact law.failWaiting (by simpa using copying) role

end Retirement.Lawful

namespace State.RetirementSound
variable {s : State} (hs : s.RetirementSound)
include hs

theorem ownershipPass (ht : s.TrackerSound) : s.ownershipPass.RetirementSound := by
  unfold State.ownershipPass
  split
  · rename_i i hi
    obtain ⟨e, he, hp, -⟩ := State.passable_iff.1 (List.find?_some hi)
    by_cases ho : e.origin = .copy
    · obtain ⟨job, hj, hl, hw⟩ := hs.liveCopy ht he ho (by simp [hp])
      exact State.becomeOwner_retirementSound hs.lawful he ho hj hl (hw.1 hp)
    · exact hs.of_keeps (.becomeOwner he ho)
  · exact hs

/-- R143: while the copy pool is empty no copy is in progress. -/
theorem noCopy_of_occupancy (h : s.occupancy .copy = 0) : s.retirement.copy = none :=
  hs.noCopy_of_noEntry fun i e he ho => absurd h (State.occupancy_copy_ne_zero.2 ⟨i, e, he, ho⟩)

theorem copyStart : s.copyStart.RetirementSound := by
  unfold State.copyStart
  split
  · rename_i i q rest slot up queue
    have room : s.occupancy .copy < 1 := (State.slotFor_eq_some.1 slot).1
    have noCopy := hs.noCopy_of_occupancy (Nat.lt_one_iff.1 room)
    cases ha : s.retirement.area with
    | none => simp [(hs.lawful.noArea ha).1] at queue
    | some a =>
      have law := hs.lawful.area a ha
      rw [queue, noCopy] at law
      exact State.create_retirementSound (.of_area ha (law.start false)) rfl rfl rfl
        fun m hm => (law.fits m hm).state_active (by simp)
  · exact hs

end State.RetirementSound

end Sys2Proof.Machine
end

section
/-! SUPPORT. Completions, timeouts and the memory link keep the law of the retirement unit (O58). -/

namespace Sys2Proof.Machine

/-! ### An entry that leaves the tracker, or waits again -/

theorem State.entry_wait_self (i : Fin 64) (e : Entry) (s : State) :
    (s.wait i e).entry i = some { e with phase := .waitingIssue } := by rw [State.entry_wait, if_pos rfl]

/-- Whatever stands at an index is no copy in progress: no COPY, or expired. -/
def State.NoLiveCopy (s : State) (i : Fin 64) : Prop :=
  ∀ e, s.entry i = some e → e.origin = .copy → e.phase = .expired

section
variable {s t : State} {i : Fin 64} {e : Entry}

theorem State.NoLiveCopy.of_origin (he : s.entry i = some e) (ho : e.origin ≠ .copy) : s.NoLiveCopy i := by
  intro x hx hc
  obtain rfl := Option.some.inj (he.symm.trans hx)
  exact absurd hc ho

theorem State.NoLiveCopy.of_expired (he : s.entry i = some e) (hp : e.phase = .expired) : s.NoLiveCopy i := by
  intro x hx _
  obtain rfl := Option.some.inj (he.symm.trans hx)
  exact hp

theorem State.NoLiveCopy.released (h : s.NoLiveCopy i) (tracker : t.tracker = (s.release i).tracker) : s.CopyStays t :=
  .of_other (fun j hj => by rw [State.entry_of_tracker tracker, State.entry_release, if_neg hj.symm]) h

theorem State.NoLiveCopy.rejoined (h : s.NoLiveCopy i) (tracker : t.tracker = s.tracker) (e' : Entry) :
    s.CopyStays (t.wait i e') :=
  .of_other (fun j hj => by rw [State.entry_wait, if_neg hj.symm, State.entry_of_tracker tracker]) h

/-- R82: a failing entry that is no COPY leaves the retirement unit alone. -/
theorem State.originFails_retirement (ho : e.origin ≠ .copy) (w : FillFailure) :
    (s.originFails e w).retirement = s.retirement := by
  unfold State.originFails
  split
  case h_5 hc => exact absurd hc ho
  all_goals simp

/-! ### Accepted completions -/

/-- R79: an accepted SDATA of an entry that is no COPY. -/
theorem State.KeepsCopy.readTaken (he : s.entry i = some e) (ho : e.origin ≠ .copy) (l : StoredLine) :
    s.KeepsCopy ((s.freeCredit i).readTaken i e l) := by
  have other := State.NoLiveCopy.of_origin he ho
  have finish {t : State} (tracker : t.tracker = (s.release i).tracker) (same : t.retirement = s.retirement) :
      s.KeepsCopy t := ⟨same, other.released tracker⟩
  have goOn (e' : Entry) : s.KeepsCopy ((s.freeCredit i).wait i e') := ⟨rfl, other.rejoined rfl e'⟩
  have patrol (f : Finding) (d : Data) : s.KeepsCopy ((s.freeCredit i).patrolRead i e f d) := by
    unfold State.patrolRead
    split
    · exact finish (by simp) (by simp)
    · exact finish (by simp) (by simp)
    · exact goOn _
    · exact goOn _
  unfold State.readTaken
  split
  · split
    · exact finish (by simp [State.readUnchecked]) (by simp)
    · exact finish (by simp [State.readDecoded]) (by simp)
    · unfold State.mergeUnchecked
      split
      · exact finish (by simp) (by simp)
      · exact goOn _
    · unfold State.mergeDecoded
      split
      · exact finish (by simp) (by simp)
      · split
        · exact goOn _
        · exact goOn _
        · exact finish (by simp) (by simp)
        · exact finish (by simp) (by simp)
    · exact .of_fields ⟨rfl, rfl⟩
  · exact patrol _ _
  · exact patrol _ _
  · exact .of_fields ⟨rfl, rfl⟩
  · rename_i hc
    exact absurd hc ho

end

namespace State.RetirementSound
variable {s : State} {i : Fin 64} {e : Entry} (hs : s.RetirementSound) (ht : s.TrackerSound)
include hs ht

/-- R144: a COPY at the memory target is owner, and a map entry is COPYING. -/
theorem issuedCopy (he : s.entry i = some e) (ho : e.origin = .copy) (hp : e.phase = .awaitingData ∨ e.phase = .awaitingDone) :
    ∃ job, s.retirement.copy = some job ∧ ¬∀ m ∈ s.retirement.map, m.state = .active := by
  have live : e.phase ≠ .expired ∧ e.phase ≠ .waitingLine := by obtain hp | hp := hp <;> simp [hp]
  obtain ⟨job, hj, -, hw⟩ := hs.liveCopy ht he ho live.1
  exact ⟨job, hj, fun active => live.2 (hw.2 active)⟩

/-- R145: the source of the copy has been read. -/
theorem copyRead (he : s.entry i = some e) (ho : e.origin = .copy) (hp : e.phase = .awaitingData ∨ e.phase = .awaitingDone)
    (f : Finding) (d : Data) : ((s.freeCredit i).copyRead i e f d).RetirementSound := by
  have live : e.phase ≠ .waitingLine := by obtain hp | hp := hp <;> simp [hp]
  obtain ⟨job, hj, -⟩ := hs.issuedCopy ht he ho hp
  obtain ⟨a, ha, law⟩ := hs.lawful.area_of_copy hj
  have hj' : (s.freeCredit i).retirement.copy = some job := hj
  simp only [State.copyRead, hj']
  refine hs.of_tables (.of_past (i := i) ?_ he (State.entry_wait_self i _ _) ⟨rfl, rfl⟩ live (by simp)) ?_
  · intro j hj
    rw [State.entry_wait, if_neg hj.symm]
    rfl
  · exact .of_area ha ha (fun _ => law.setVoid _) (by simp [hj]) .rfl

theorem readTaken (he : s.entry i = some e) (hp : e.phase = .awaitingData ∨ e.phase = .awaitingDone) (l : StoredLine) :
    ((s.freeCredit i).readTaken i e l).RetirementSound := by
  by_cases ho : e.origin = .copy
  · simp only [State.readTaken, ho]
    exact hs.copyRead ht he ho hp _ _
  · exact hs.of_keeps (.readTaken he ho l)

theorem writeTaken (he : s.entry i = some e) (hp : e.phase = .awaitingData ∨ e.phase = .awaitingDone) :
    ((s.freeCredit i).writeTaken i e).RetirementSound := by
  have finish (ho : e.origin ≠ .copy) {t : State} (tracker : t.tracker = (s.release i).tracker)
      (tables : s.retirement.Keeps t.retirement) : t.RetirementSound :=
    hs.of_tables ((NoLiveCopy.of_origin he ho).released tracker) tables
  have patrol (ho : e.origin ≠ .copy) : ((s.freeCredit i).patrolWritten i e).RetirementSound :=
    finish ho (by simp [State.patrolWritten_released]) (.patrolWritten i e (s.freeCredit i))
  unfold State.writeTaken
  split
  · rename_i t ho
    exact finish (by simp [ho]) (by simp [State.writeDone]) (.writeDone i e t (s.freeCredit i))
  · rename_i ho
    exact patrol (by simp [ho])
  · rename_i ho
    exact patrol (by simp [ho])
  · rename_i ho
    exact finish (by simp [ho]) (by simp) (.of_eq (by simp))
  · rename_i ho
    obtain ⟨job, hj, copying⟩ := hs.issuedCopy ht he ho hp
    obtain ⟨law, noCopy⟩ := Retirement.Lawful.copySucceed (s := s.freeCredit i) hs.lawful hj copying e.region
    exact of_noCopy (by simpa using law) (by simpa using noCopy)

/-! ### Failures -/

/-- R82, R147: the operation of an entry fails, and `t` is what it leaves of the tracker. -/
theorem originFails (he : s.entry i = some e) (hp : e.phase = .awaitingData ∨ e.phase = .awaitingDone) {t u : State}
    (w : FillFailure) (same : t.retirement = s.retirement) (entries : ∀ j, j ≠ i → u.entry j = s.entry j)
    (result : u.retirement = (t.originFails e w).retirement) : u.RetirementSound := by
  by_cases ho : e.origin = .copy
  · obtain ⟨job, hj, copying⟩ := hs.issuedCopy ht he ho hp
    rw [← same] at hj copying
    obtain ⟨law, noCopy⟩ := Retirement.Lawful.copyFail (s := t) (same ▸ hs.lawful) hj (owner := true) (by simpa using copying)
      e.writing (copyReason e.writing w) e.region
    have failed : t.originFails e w = t.copyFail true e.writing (copyReason e.writing w) e.region := by
      simp only [State.originFails, ho]
    rw [← failed, ← result] at law noCopy
    exact of_noCopy law noCopy
  · rw [State.originFails_retirement ho, same] at result
    exact hs.of_keeps ⟨result, .of_other entries (NoLiveCopy.of_origin he ho)⟩

theorem targetError (he : s.entry i = some e) (hp : e.phase = .awaitingData ∨ e.phase = .awaitingDone) :
    (s.targetError i e).RetirementSound := by
  refine hs.originFails ht he hp (t := (s.freeCredit i).raise (failureNotice .targetError e)) .targetError (by simp)
    (fun j hj => ?_) (by simp [State.targetError])
  rw [State.targetError, State.entry_release, if_neg hj.symm]
  exact congrFun (State.entry_of_tracker (by simp)) j

theorem timeoutExpiry (i : Fin 64) : (s.timeoutExpiry i).RetirementSound := by
  unfold State.timeoutExpiry
  split
  · exact hs
  · rename_i e he
    obtain ⟨entry, phase⟩ : s.entry i = some e ∧ (e.phase = .awaitingData ∨ e.phase = .awaitingDone) := by
      unfold State.expiring at he
      (repeat' split at he) <;> simp_all
    refine hs.originFails ht entry phase .timeout (by simp) (fun j hj => ?_) rfl
    have expired : (s.setEntry i (some { e with phase := .expired })).entry j = s.entry j := by
      rw [State.entry_setEntry, if_neg hj.symm]
    rw [← expired]
    simp [State.entry]

theorem completion {op : MemoryOp} (tag status : Byte) {finish : Fin 64 → Entry → State → State}
    (hf : ∀ i e, s.entry i = some e → (e.phase = .awaitingData ∨ e.phase = .awaitingDone) →
      (finish i e (s.freeCredit i)).RetirementSound) : (s.completion op tag status finish).RetirementSound := by
  have unmatched (w : Reason) : (s.unmatched tag w).RetirementSound := hs.of_keeps (.of_fields ⟨rfl, rfl⟩)
  unfold State.completion
  split
  · exact hs
  split
  · exact unmatched _
  rename_i r hr
  have hr : r ∈ s.memory.records := List.mem_of_find?_eq_some hr
  split
  · exact unmatched _
  split
  · exact unmatched _
  rename_i e he
  split
  · rename_i hp
    exact hs.of_keeps ⟨by simp, (NoLiveCopy.of_expired he hp).released (by simp [State.lateCompletion])⟩
  · rename_i hp
    obtain ⟨phase, -⟩ := ht.awaits hr he hp
    split
    · exact hf r.tag e he phase
    · exact hs.targetError ht he phase

/-! ### The memory link -/

omit ht in
theorem memoryHello (n : Byte) (k : BitVec 64) : (s.memoryHello n k).RetirementSound := by
  unfold State.memoryHello
  split
  · exact hs.of_keeps (.of_fields ⟨rfl, rfl⟩)
  · split
    · exact hs.of_tables (.of_tracker (by simp)) (.memoryUp n k s)
    · exact hs.of_keeps (.of_fields ⟨rfl, rfl⟩)

theorem copyLost {t : State} (tracker : t.tracker = s.tracker) (same : t.retirement = s.retirement) :
    t.copyLost.retirement.Lawful ∧ t.copyLost.retirement.copy = none := by
  have law : t.retirement.Lawful := same ▸ hs.lawful
  cases hc : t.copyEntry with
  | none =>
    rw [State.copyLost_of_none hc, same]
    refine ⟨hs.lawful, hs.noCopy_of_noEntry fun i e he ho => ?_⟩
    rw [State.copyEntry_of_tracker tracker, State.copyEntry, List.findSome?_eq_none_iff] at hc
    simpa [he, ho] using hc i (List.mem_finRange i)
  | some e =>
    obtain ⟨i, he, ho, hp⟩ : ∃ i, s.entry i = some e ∧ e.origin = .copy ∧ e.phase ≠ .expired := by
      rw [State.copyEntry_of_tracker tracker] at hc
      obtain ⟨i, -, hi⟩ := List.exists_of_findSome?_eq_some hc
      refine ⟨i, ?_⟩
      cases he : s.entry i with
      | none => simp [he] at hi
      | some x =>
        simp only [he] at hi
        split at hi
        · rename_i live
          obtain rfl := Option.some.inj hi
          exact ⟨rfl, live⟩
        · cases hi
    obtain ⟨job, hj, -, hw⟩ := hs.liveCopy ht he ho hp
    rw [← same] at hj hw
    rw [State.copyLost_of_copy hc]
    split
    · rename_i waits
      exact law.copyFail hj (by simpa using hw.1 waits) _ _ _
    · rename_i owns
      split <;> exact law.copyFail hj (by simpa using fun active => owns (hw.2 active)) _ _ _

/-- R73, R147: the loss of the memory link ends the copy in progress. -/
theorem memoryLoss (w : Reason) : (s.memoryLoss w).RetirementSound := by
  cases hl : s.memory.link with
  | down => rwa [State.memoryLoss_of_down hl]
  | up =>
    rw [State.memoryLoss_of_up hl]
    obtain ⟨law, noCopy⟩ := hs.copyLost ht (t := (s.linkFallen w).fillLost) (by simp [State.linkFallen])
      (by simp [State.linkFallen])
    exact of_noCopy (by simpa using law) (by simpa using noCopy)

end State.RetirementSound

end Sys2Proof.Machine
end

section
/-! SUPPORT. The management commands keep the law of the retirement unit, and with the operations before them every step
does (O58). -/

namespace Sys2Proof.Machine

/-- The commands on spares and retirements leave the tracker alone. -/
theorem retirementCommands_tracker (requester tag : Byte) (b : ArgBlock) (s : State) :
    (spareSet b s).state.tracker = s.tracker ∧ (spareMark b s).state.tracker = s.tracker
      ∧ (retireLine requester tag b s).state.tracker = s.tracker ∧ (retireCancel b s).state.tracker = s.tracker
      ∧ (retireLoad b s).state.tracker = s.tracker := by
  refine ⟨?_, ?_, ?_, ?_, ?_⟩
  · unfold spareSet
    dsimp only
    (repeat' split) <;> rfl
  · unfold spareMark
    dsimp only
    (repeat' split) <;> simp [refuse, done]
  · unfold retireLine
    dsimp only
    split <;> simp [refuse, started]
  · unfold retireCancel
    dsimp only
    (repeat' split) <;> simp [refuse, done, State.cancelRetire]
  · unfold retireLoad
    dsimp only
    (repeat' split) <;> simp [refuse, done, State.loadRetired]

namespace State.RetirementSound
variable {s : State} (hs : s.RetirementSound)
include hs

/-- R131, R132: a spare area is set while nothing is retired or to be retired. -/
theorem spareSet (b : ArgBlock) : (spareSet b s).state.RetirementSound := by
  unfold Machine.spareSet
  dsimp only
  split
  · exact hs
  rename_i count
  split
  · exact hs
  split
  · exact hs
  split
  · exact hs
  rename_i idle
  split
  · exact hs
  split
  · exact hs
  simp only [not_or, not_not, not_lt] at count idle
  obtain ⟨map, queue, copies⟩ := idle
  have noCopy := hs.noCopy_of_occupancy copies
  refine of_noCopy (.of_area rfl ?_) noCopy
  have new := RetireLaw.new (argLine b 12) (count := argNat b 16 2) ⟨Nat.one_le_iff_ne_zero.2 count.1, count.2⟩
  rwa [← map, ← queue, ← noCopy] at new

theorem commandOf {k : Nat} {c : Command} {f : State → Reply} (h : commandOf k c = some f) :
    (f s).state.RetirementSound := by
  obtain ⟨-, mark, line, cancel, load⟩ := retirementCommands_tracker c.requester c.tag c.block s
  unfold Machine.commandOf at h
  split at h
  case h_7 =>
    cases h
    obtain e | ⟨i, r, -, -, -, e⟩ := fillStart_cases c.block s <;> rw [e]
    · exact hs
    · exact hs.of_keeps (KeepsCopy.startFill i r s)
  case h_11 =>
    cases h
    exact hs.spareSet c.block
  case h_12 =>
    cases h
    exact hs.of_tables (.of_tracker mark) (.spareMark c.block s)
  case h_14 =>
    cases h
    exact hs.of_tables (.of_tracker line) (.retireLine c.requester c.tag c.block s)
  case h_15 =>
    cases h
    exact hs.of_tables (.of_tracker cancel) (.retireCancel c.block s)
  case h_16 =>
    cases h
    exact hs.of_tables (.of_tracker load) (.retireLoad c.block s)
  all_goals cases h
  all_goals
    simp only [regionDefine, regionModify, regionState, regionRemove, regionQuery, patrolSet, fillStop, historyQuery,
      historyClear, spareQuery, retireQuery, timeoutSet, eventGrant, managerSet, freeze, deviceQuery, refuse, done,
      started]
    (repeat' split) <;>
      refine hs.of_keeps (.of_fields ?_) <;>
        simp [State.boundsChanged, State.regionRemoved, State.changeManager]

theorem serveCommand : s.serveCommand.RetirementSound := by
  unfold State.serveCommand
  split
  · rename_i c rest _
    have taken : (s.takeCommand rest).RetirementSound := hs.of_keeps (.of_fields ⟨rfl, rfl⟩)
    have processed : ((s.takeCommand rest).process c).state.RetirementSound := by
      unfold State.process
      (repeat' split)
      · exact taken.commandOf ‹_›
      · exact taken
      · exact taken.of_keeps (.of_fields ⟨rfl, rfl⟩)
    exact processed.of_keeps (.of_fields (by simp [Reply.send]))
  · exact hs

end State.RetirementSound

/-! ### Every step -/

/-- The law of the retirement unit leans on that of the tracker: the copy in progress has the one COPY entry. -/
theorem operationsKeep_retirementSound : OperationsKeep fun s => s.RetirementSound ∧ s.TrackerSound where
  closeEvent s hs := ⟨hs.1.of_keeps (.of_fields ⟨rfl, rfl⟩), operationsKeep_trackerSound.closeEvent s hs.2⟩
  pending _ q hs := ⟨hs.1.of_keeps (.of_fields ⟨rfl, rfl⟩), operationsKeep_trackerSound.pending _ q hs.2⟩
  reset m q := ⟨.of_empty rfl rfl rfl rfl, operationsKeep_trackerSound.reset m q⟩
  ownershipPass _ hs := ⟨hs.1.ownershipPass hs.2, hs.2.ownershipPass⟩
  repairService s hs := ⟨hs.1.of_keeps (.repairService s), hs.2.repairService⟩
  fillIssue s hs := ⟨hs.1.of_keeps (.fillIssue s), hs.2.fillIssue⟩
  copyStart _ hs := ⟨hs.1.copyStart, hs.2.copyStart⟩
  acceptance s hs := ⟨hs.1.of_keeps (.acceptance s), hs.2.acceptance⟩
  serveCommand _ hs := ⟨hs.1.serveCommand, hs.2.serveCommand⟩
  issueGrant _ hs := ⟨hs.1.of_keeps (.issueGrant hs.2), hs.2.issueGrant⟩
  eventDelivery s hs := ⟨hs.1.of_keeps (.of_fields (by simp)), operationsKeep_trackerSound.eventDelivery s hs.2⟩
  requesterHello _ hs := ⟨hs.1.of_keeps (.of_fields (by simp)), hs.2.requesterHello⟩
  requesterFall w s hs := ⟨hs.1.of_keeps (.requesterFall w s), hs.2.requesterFall w⟩
  requestArrives q s hs := ⟨hs.1.of_keeps (.requestArrives q s), hs.2.requestArrives q⟩
  commandArrives c s hs := ⟨hs.1.of_keeps (.commandArrives c s), hs.2.commandArrives c⟩
  requesterBad k n s hs := ⟨hs.1.of_keeps (.requesterBad k n s), hs.2.requesterBad k n⟩
  transmitPacket s hs := ⟨hs.1.of_keeps (.of_fields (by simp)), operationsKeep_trackerSound.transmitPacket s hs.2⟩
  memoryHello n k _ hs := ⟨hs.1.memoryHello n k, hs.2.memoryHello n k⟩
  memoryLoss w _ hs := ⟨hs.1.memoryLoss hs.2 w, hs.2.memoryLoss w⟩
  helloExpiry _ hs := ⟨hs.1.of_keeps (.of_fields (by simp)), hs.2.helloExpiry⟩
  memoryBad k n s hs := ⟨hs.1.of_keeps (.of_fields (by simp)), operationsKeep_trackerSound.memoryBad k n s hs.2⟩
  sdata tag status l s hs :=
    ⟨hs.1.completion hs.2 tag status fun _ _ he hp => hs.1.readTaken hs.2 he hp l,
      operationsKeep_trackerSound.sdata tag status l s hs.2⟩
  sdone tag status s hs :=
    ⟨hs.1.completion hs.2 tag status fun _ _ he hp => hs.1.writeTaken hs.2 he hp,
      operationsKeep_trackerSound.sdone tag status s hs.2⟩
  timeoutExpiry i _ hs := ⟨hs.1.timeoutExpiry hs.2 i, hs.2.timeoutExpiry i⟩
  slotExpiry s hs := ⟨hs.1.of_keeps (.slotExpiry s), hs.2.slotExpiry⟩
  tick s hs := ⟨hs.1.of_keeps (.of_fields ⟨rfl, rfl⟩), operationsKeep_trackerSound.tick s hs.2⟩

/-- Settles O58: every step keeps the history table and the repair queue each by itself, and the retirement unit together
with the tracker. -/
theorem historyAndQueuesStayInOrder : Obligations.HistoryAndQueuesStayInOrder := by
  rintro s t ⟨history, repairs, units⟩ row
  exact ⟨operationsKeep_historySound.keptByStep s t history row, operationsKeep_repairsSound.keptByStep s t repairs row,
    operationsKeep_retirementSound.keptByStep s t units row⟩

end Sys2Proof.Machine
end
